-- ==== Sys2Proof/Word.lean ====
section
/-! DEFINITION. The three widths of the block: a field element (8 bits), a word (32 bits) and a command word (40 bits). -/

namespace Sys2Proof

/-- A byte, "field element": parameter `B` = 8 (spec/00_scope.md R7, R15). -/
abbrev Byte := BitVec 8

/-- A word: parameter `W` = 32 (spec/00_scope.md R7, R15). Its `+` is the spec's `+32`, wraparound included (R17). -/
abbrev Word := BitVec 32

/-- A command word: parameter `CMDW` = 40 (spec/00_scope.md R8, spec/30_encoding.md R82). -/
abbrev CommandWord := BitVec 40

end Sys2Proof
end

