-- ==== Sys2Proof/Machine/Operands.lean ====
section
/-! DEFINITION. Operand forms: the fields of a command word in the five formats N, W, B, M, P, their assembly, the byte
lanes of a word, and zero extension. -/

namespace Sys2Proof.Machine

/-! ### Fields of the command word (spec/30_encoding.md R82, R83, R87) -/

/-- `cw[39:32]` (R82). -/
def opcodeField (cw : CommandWord) : Byte := cw.extractLsb' 32 8

/-- Format W: `word = cw[31:0]` as it stands (R83, R87). -/
def wordField (cw : CommandWord) : Word := cw.extractLsb' 0 32

/-- Format B: `byte = operand[7:0]` (R83). -/
def byteField (cw : CommandWord) : Byte := cw.extractLsb' 0 8

/-- Formats M and P: `value = operand[7:0]` (R83). -/
def valueField (cw : CommandWord) : Byte := cw.extractLsb' 0 8

/-- Formats M and P: `constant = operand[15:8]` (R83). -/
def constantField (cw : CommandWord) : Byte := cw.extractLsb' 8 8

/-- Format P: `exponent = operand[23:16]`, an unsigned number 0 to 255 (R83, R87). -/
def exponentField (cw : CommandWord) : Nat := (cw.extractLsb' 16 8).toNat

/-! ### Assembly of an operand, ignored bits written 0 (spec/30_encoding.md R83) -/

/-- The command word with the given opcode and operand (R82). -/
def commandWord (opcode : Byte) (operand : Word) : CommandWord := opcode ++ operand

/-- Format N: no operand. -/
def operandN : Word := 0#32

/-- Format W: the word itself. -/
def operandW (word : Word) : Word := word

/-- Format B: the byte in bits 7:0. -/
def operandB (byte : Byte) : Word := 0#24 ++ byte

/-- Format M: the constant in bits 15:8, the value in bits 7:0. -/
def operandM (value constant : Byte) : Word := 0#16 ++ constant ++ value

/-- Format P: the exponent in bits 23:16, the constant in bits 15:8, the value in bits 7:0. -/
def operandP (value : Byte) (exponent : Nat) (constant : Byte) : Word :=
  0#8 ++ BitVec.ofNat 8 exponent ++ constant ++ value

/-! ### Byte lanes of a word (spec/00_scope.md R16, spec/20_memory.md R59) -/

/-- Lane 0, the high byte `w[31:24]`. -/
def lane0 (w : Word) : Byte := w.extractLsb' 24 8

/-- Lane 1, `w[23:16]`. -/
def lane1 (w : Word) : Byte := w.extractLsb' 16 8

/-- Lane 2, `w[15:8]`. -/
def lane2 (w : Word) : Byte := w.extractLsb' 8 8

/-- Lane 3, the low byte `w[7:0]`. -/
def lane3 (w : Word) : Byte := w.extractLsb' 0 8

/-- `lanes(a, b, c, d)` = `a ∥ b ∥ c ∥ d`, lane 0 the most significant (R16, decision D8). -/
def lanes (a b c d : Byte) : Word := a ++ b ++ c ++ d

/-- `zext_32(b)`: the word whose low 8 bits are `b` and whose other bits are 0 (spec/00_scope.md R17). -/
def zext32 (b : Byte) : Word := b.setWidth 32

end Sys2Proof.Machine
end

