-- ==== Sys2Proof/Syntax.lean ====
section
/-! DEFINITION. The seventeen commands of the command port, one constructor per row of spec/opcode_table.json. -/

namespace Sys2Proof

/-- The commands (spec/30_encoding.md R84). Operands stand in the order of the text form of R101, which is the order
of the source's parameters. The exponent of `POW` is an iteration count, so it is a `Nat`; that it fits its 8-bit field
is checked by `Instr.WellFormed`. Reserved opcodes are no commands: the decoder rejects them (R88). -/
inductive Instr where
  /-- NOP, the idle command (R177) -/
  | nop
  /-- WRKEY word: push one key word (R178) -/
  | wrkey (word : Word)
  /-- WRIV word: push one IV word (R179) -/
  | wriv (word : Word)
  /-- LOAD: driver step 1 (R181) -/
  | load
  /-- ISTEP: one cipher clock of driver step 2 (R182) -/
  | istep
  /-- WARMUP: driver step 2 to its end (R183) -/
  | warmup
  /-- INIT: driver steps 1 and 2 (R184) -/
  | init
  /-- GEN: one keystream word (R185) -/
  | gen
  /-- DISCARD: the end of a session (R187) -/
  | discard
  /-- MULC value, constant (R191) -/
  | mulc (value constant : Byte)
  /-- POW value, exponent, constant (R192) -/
  | pow (value : Byte) (exponent : Nat) (constant : Byte)
  /-- EXPAND byte (R193) -/
  | expand (byte : Byte)
  /-- CONTRACT byte (R194) -/
  | contract (byte : Byte)
  /-- BOXR byte (R195) -/
  | boxr (byte : Byte)
  /-- BOXQ byte (R196) -/
  | boxq (byte : Byte)
  /-- WT1 word (R197) -/
  | wt1 (word : Word)
  /-- WT2 word (R198) -/
  | wt2 (word : Word)
  deriving DecidableEq, Repr

end Sys2Proof
end

