-- ==== Sys2Proof/WellFormed.lean ====
section
/-! DEFINITION. Which instruction terms an encoding admits. -/

namespace Sys2Proof

/-- The largest exponent of `POW`: "exponents are bounded (≤255)" (spec/30_encoding.md R87, spec/92_eei_decisions.md
D22). -/
def maxExponent : Nat := 255

/-- An instruction is well formed when every operand is a value its field can hold (spec/30_encoding.md R83, R87).
Words and bytes are so by their types; the exponent of `POW` is checked. -/
def Instr.wellFormed : Instr → Bool
  | .nop => true
  | .wrkey _ => true
  | .wriv _ => true
  | .load => true
  | .istep => true
  | .warmup => true
  | .init => true
  | .gen => true
  | .discard => true
  | .mulc _ _ => true
  | .pow _ exponent _ => decide (exponent ≤ maxExponent)
  | .expand _ => true
  | .contract _ => true
  | .boxr _ => true
  | .boxq _ => true
  | .wt1 _ => true
  | .wt2 _ => true

/-- The check as a proposition. -/
abbrev Instr.WellFormed (i : Instr) : Prop := i.wellFormed = true

end Sys2Proof
end

