-- ==== Sys2Proof/Decode.lean ====
section
/-! DEFINITION. The decoder, total on every 40-bit command word and rejecting reserved opcodes by name, and the encoder. -/

namespace Sys2Proof

open Sys2Proof.Machine

/-- Why a command word selects no command. -/
inductive DecodeError where
  /-- The opcode is one of the 239 reserved values 0x09 to 0x0F, 0x18 to 0xFF (spec/30_encoding.md R88). -/
  | reservedOpcode (opcode : Byte)
  deriving DecidableEq, Repr

/-- The decoder: "the decoder looks at the opcode byte only" to select the row, then takes the operand fields of the
row's format (spec/30_encoding.md R84, R83, R87, R88). -/
def decode (cw : CommandWord) : Except DecodeError Instr :=
  match (opcodeField cw).toNat with
  | 0x00 => .ok .nop
  | 0x01 => .ok (.wrkey (wordField cw))
  | 0x02 => .ok (.wriv (wordField cw))
  | 0x03 => .ok .load
  | 0x04 => .ok .istep
  | 0x05 => .ok .warmup
  | 0x06 => .ok .init
  | 0x07 => .ok .gen
  | 0x08 => .ok .discard
  | 0x10 => .ok (.mulc (valueField cw) (constantField cw))
  | 0x11 => .ok (.pow (valueField cw) (exponentField cw) (constantField cw))
  | 0x12 => .ok (.expand (byteField cw))
  | 0x13 => .ok (.contract (byteField cw))
  | 0x14 => .ok (.boxr (byteField cw))
  | 0x15 => .ok (.boxq (byteField cw))
  | 0x16 => .ok (.wt1 (wordField cw))
  | 0x17 => .ok (.wt2 (wordField cw))
  | _ => .error (.reservedOpcode (opcodeField cw))

/-- The opcode of a command (spec/30_encoding.md R84, first column). -/
def opcodeOf : Instr → Byte
  | .nop => 0x00
  | .wrkey _ => 0x01
  | .wriv _ => 0x02
  | .load => 0x03
  | .istep => 0x04
  | .warmup => 0x05
  | .init => 0x06
  | .gen => 0x07
  | .discard => 0x08
  | .mulc _ _ => 0x10
  | .pow _ _ _ => 0x11
  | .expand _ => 0x12
  | .contract _ => 0x13
  | .boxr _ => 0x14
  | .boxq _ => 0x15
  | .wt1 _ => 0x16
  | .wt2 _ => 0x17

/-- The operand word of a command in its format, ignored bits 0 (spec/30_encoding.md R83). -/
def operandOf : Instr → Word
  | .nop => operandN
  | .wrkey word => operandW word
  | .wriv word => operandW word
  | .load => operandN
  | .istep => operandN
  | .warmup => operandN
  | .init => operandN
  | .gen => operandN
  | .discard => operandN
  | .mulc value constant => operandM value constant
  | .pow value exponent constant => operandP value exponent constant
  | .expand byte => operandB byte
  | .contract byte => operandB byte
  | .boxr byte => operandB byte
  | .boxq byte => operandB byte
  | .wt1 word => operandW word
  | .wt2 word => operandW word

/-- The encoder: the command word of a well-formed command, ignored operand bits written 0 (spec/30_encoding.md R82 to
R84). -/
def encode (i : Instr) : CommandWord := commandWord (opcodeOf i) (operandOf i)

/-- The `mask` of every row of the opcode map (spec/30_encoding.md R84). -/
def rowMask : CommandWord := 0xFF00000000#40

/-- The `match` value of a command's row of the opcode map (spec/30_encoding.md R84). -/
def rowMatch : Instr → CommandWord
  | .nop => 0x0000000000#40
  | .wrkey _ => 0x0100000000#40
  | .wriv _ => 0x0200000000#40
  | .load => 0x0300000000#40
  | .istep => 0x0400000000#40
  | .warmup => 0x0500000000#40
  | .init => 0x0600000000#40
  | .gen => 0x0700000000#40
  | .discard => 0x0800000000#40
  | .mulc _ _ => 0x1000000000#40
  | .pow _ _ _ => 0x1100000000#40
  | .expand _ => 0x1200000000#40
  | .contract _ => 0x1300000000#40
  | .boxr _ => 0x1400000000#40
  | .boxq _ => 0x1500000000#40
  | .wt1 _ => 0x1600000000#40
  | .wt2 _ => 0x1700000000#40

/-- The bits of a command word that are not "ignored": the opcode and the operand fields of the command's format
(spec/30_encoding.md R83). -/
def usedBits : Instr → CommandWord
  | .nop => 0xFF00000000#40
  | .wrkey _ => 0xFFFFFFFFFF#40
  | .wriv _ => 0xFFFFFFFFFF#40
  | .load => 0xFF00000000#40
  | .istep => 0xFF00000000#40
  | .warmup => 0xFF00000000#40
  | .init => 0xFF00000000#40
  | .gen => 0xFF00000000#40
  | .discard => 0xFF00000000#40
  | .mulc _ _ => 0xFF0000FFFF#40
  | .pow _ _ _ => 0xFF00FFFFFF#40
  | .expand _ => 0xFF000000FF#40
  | .contract _ => 0xFF000000FF#40
  | .boxr _ => 0xFF000000FF#40
  | .boxq _ => 0xFF000000FF#40
  | .wt1 _ => 0xFFFFFFFFFF#40
  | .wt2 _ => 0xFFFFFFFFFF#40

/-- The command word made of the `nbits` low bits of `w`, every bit above them 0. A command word is one 40-bit value
carried on parallel wires, so there is no byte order to apply (spec/20_memory.md R60, spec/30_encoding.md R80). -/
def tableCommandWord (nbits w : Nat) : CommandWord := BitVec.ofNat 40 (w % 2 ^ nbits)

/-- What the decoder reads from an instruction whose bits are `w`, numbered as spec/opcode_table.json numbers them. -/
def decodeTableWord (nbits w : Nat) : Option Instr :=
  match decode (tableCommandWord nbits w) with
  | .ok i => some i
  | .error _ => none

end Sys2Proof
end

