-- ==== Sys2Proof/Config.lean ====
section
/-! DEFINITION. What an implementation fixes and the spec leaves open: the contents of the two substitution tables. -/

namespace Sys2Proof

/-- The two substitution tables, each a total function from bytes to bytes (spec/00_scope.md R9, spec/20_memory.md
R50 to R56). They are parameters of the block and no state (spec/00_scope.md R11): every operation that reads a table
takes a `Tables`, and the machine is run with `Config.tables`. The argument of a table is the flattened index
`16 * b[7:4] + b[3:0]`, which is the byte `b` itself (spec/20_memory.md R51). -/
structure Tables where
  /-- `TABLE_R` -/
  r : Byte → Byte
  /-- `TABLE_Q` -/
  q : Byte → Byte

/-- `TABLE_R`: OPEN parameter (spec/92_eei_decisions.md D1, spec/93_implementation_defined.md U1). It has no body, so
nothing proved of the machine rests on an entry. Assumption log 1. -/
opaque Config.tableR : Byte → Byte

/-- `TABLE_Q`: OPEN parameter, as `Config.tableR`. Assumption log 1. -/
opaque Config.tableQ : Byte → Byte

/-- The tables of the machine: read-only data, never written by anything (spec/20_memory.md R53). -/
def Config.tables : Tables := ⟨Config.tableR, Config.tableQ⟩

end Sys2Proof
end

