-- ==== Sys2Proof/Machine/State.lean ====
section
/-! DEFINITION. The state of one `SCCORE` as plain data, its reset value, and the reasons a step can stop. -/

namespace Sys2Proof.Machine

/-- The four driver states (spec/10_state.md R28, R29). Their 2-bit codes are `phaseCode` (Machine/Flags.lean). -/
inductive Phase where
  /-- `UNINIT`, 0: no session -/
  | uninit
  /-- `INITIALIZING`, 1: loaded, fewer than 33 cipher clocks done -/
  | initializing
  /-- `READY`, 2: initialized, no keystream word taken yet -/
  | ready
  /-- `GENERATING`, 3: at least one keystream word taken -/
  | generating
  deriving DecidableEq, Repr

/-- The four response codes (spec/30_encoding.md R90). Their 2-bit numbers are `respCode` (Machine/Flags.lean). -/
inductive Resp where
  /-- `OK`, 0 -/
  | ok
  /-- `ERR_INVALID_INPUT_LENGTH`, 1 -/
  | errInvalidInputLength
  /-- `ERR_SEQUENCE`, 2 -/
  | errSequence
  /-- `ERR_ILLEGAL_CMD`, 3 -/
  | errIllegalCmd
  deriving DecidableEq, Repr

/-- The response to a command: code and result word (spec/30_encoding.md R80, R90, R91). -/
structure Response where
  resp : Resp
  rdata : Word
  deriving DecidableEq, Repr

/-- What the outside world can do to the block between two commands: give a command word, or assert `rst`
(spec/70_reset_and_hazards.md R261: traces are "sequences of whole commands and `rst` events"). -/
inductive PortEvent where
  /-- a command word taken at the command port (spec/30_encoding.md R80, R82) -/
  | command (cw : CommandWord)
  /-- an assertion of `rst` (spec/70_reset_and_hazards.md R260) -/
  | rst
  deriving DecidableEq, Repr

/-- The sixteen LFSR cells `s[0]` to `s[15]`: "cell 0 is the oldest/output cell, cell 15 is the newest"
(spec/10_state.md R20, R21). -/
@[ext]
structure Cells where
  s0 : Word
  s1 : Word
  s2 : Word
  s3 : Word
  s4 : Word
  s5 : Word
  s6 : Word
  s7 : Word
  s8 : Word
  s9 : Word
  s10 : Word
  s11 : Word
  s12 : Word
  s13 : Word
  s14 : Word
  s15 : Word
  deriving DecidableEq, Repr

/-- A file of four words: `KEYBUF[0..3]` or `IVBUF[0..3]` (spec/10_state.md R25, R26). -/
@[ext]
structure WordBuf where
  w0 : Word
  w1 : Word
  w2 : Word
  w3 : Word
  deriving DecidableEq, Repr

/-- The state of one `SCCORE`. The first ten fields are the state the spec gives the block (spec/00_scope.md R11:
"the sixteen cells, R1 R2 R3, PHASE, CNT, the key and IV buffers with KLEN and IVLEN"). The last two are the MODEL's
own: what the host gives the ports next, and what the response port shows (assumption log 2 and 3). `STATUS` is a
function of the state and no field (spec/10_state.md R31; `State.status` in Machine/Flags.lean). -/
@[ext]
structure State where
  /-- `s[0..15]`, 32 bits each (R20) -/
  cells : Cells
  /-- FSM register `R1` (R22) -/
  r1 : Word
  /-- FSM register `R2` (R22) -/
  r2 : Word
  /-- FSM register `R3` (R22) -/
  r3 : Word
  /-- `PHASE`, 2 bits (R28, R29) -/
  phase : Phase
  /-- `CNT`, 6 bits: initialization cipher clocks done (R28, R30) -/
  cnt : BitVec 6
  /-- `KEYBUF[0..3]` (R25) -/
  keyBuf : WordBuf
  /-- `IVBUF[0..3]` (R26) -/
  ivBuf : WordBuf
  /-- `KLEN`, 3 bits, 5 meaning "more than four" (R25) -/
  klen : BitVec 3
  /-- `IVLEN`, 3 bits (R26) -/
  ivlen : BitVec 3
  /-- MODEL: what the host gives the ports, in order, first first (log 2) -/
  pending : List PortEvent
  /-- MODEL: the response port after the last command taken; `none` while no command was taken since reset (log 3) -/
  response : Option Response
  deriving DecidableEq, Repr

/-- Reasons to stop with a fault. There is none: `step` "is total" (spec/44_driver.md R175), errors are responses
(spec/60_exceptions.md R220), and no access has an address that could fail (spec/20_memory.md R52, R61). So the type has
no constructor, and no step of any program can end in a fault. -/
inductive Fault where
  deriving DecidableEq, Repr

/-- Reasons to refuse an instruction. -/
inductive Refusal where
  /-- An instruction that has no meaning in `exec` yet; raised by an arm of `exec` only, and by none of them now (every
  instruction has its meaning). Safe: it stops where the hardware goes on. -/
  | notModelled (mnemonic : String)
  deriving DecidableEq, Repr

/-- Four zero words. -/
def WordBuf.zero : WordBuf := ⟨0, 0, 0, 0⟩

/-- Sixteen zero words. -/
def Cells.zero : Cells := ⟨0, 0, 0, 0, 0, 0, 0, 0, 0, 0, 0, 0, 0, 0, 0, 0⟩

/-- The reset state (spec/10_state.md R35, spec/70_reset_and_hazards.md R260): every item 0, `PHASE` = `UNINIT`. The
ports are idle: nothing given, no response shown (logs 2 and 3). -/
def State.reset : State where
  cells := Cells.zero
  r1 := 0
  r2 := 0
  r3 := 0
  phase := .uninit
  cnt := 0
  keyBuf := WordBuf.zero
  ivBuf := WordBuf.zero
  klen := 0
  ivlen := 0
  pending := []
  response := none

end Sys2Proof.Machine
end

