-- ==== Sys2Proof/Machine/Flags.lean ====
section
/-! DEFINITION. The block has no flag or condition code (spec/10_state.md R32: no operation sets one). What it shows of
its state is the 16-bit read-only `STATUS`, and of a command's outcome the 2-bit response code; both are computed here. -/

namespace Sys2Proof.Machine

/-- The 2-bit value of `PHASE` (spec/10_state.md R29). -/
def phaseCode : Phase → BitVec 2
  | .uninit => 0
  | .initializing => 1
  | .ready => 2
  | .generating => 3

/-- The 2-bit number of a response code (spec/30_encoding.md R90). -/
def respCode : Resp → BitVec 2
  | .ok => 0
  | .errInvalidInputLength => 1
  | .errSequence => 2
  | .errIllegalCmd => 3

/-- `STATUS` (spec/10_state.md R31): bits 15:14 zero, 13:8 `CNT`, 7:5 `IVLEN`, 4:2 `KLEN`, 1:0 `PHASE`. A function of
the state: reading it has no effect, and nothing writes it. -/
def State.status (s : State) : BitVec 16 := 0#2 ++ s.cnt ++ s.ivlen ++ s.klen ++ phaseCode s.phase

end Sys2Proof.Machine
end

