-- ==== Sys2Proof/Machine/Constants.lean ====
section
/-! DEFINITION. The constants of the block that the source fixes (spec/00_scope.md R7). -/

namespace Sys2Proof.Machine

/-- `C_R`: multiplication constant of `wordTransform1`. -/
abbrev constR : Byte := 0x1B

/-- `C_Q`: multiplication constant of `wordTransform2`. -/
abbrev constQ : Byte := 0x69

/-- `C_A`: constant of `expandWord` and `contractWord`. -/
abbrev constA : Byte := 0xA9

/-- `M`: the all-ones mask of the load formula. -/
abbrev allOnes : Word := 0xFFFFFFFF

/-- `INIT_CLOCKS_I` = 32: the initialization clocks whose LFSR clock is in initialization mode. -/
abbrev initClocksI : BitVec 6 := 32

/-- `INIT_CLOCKS` = 33 = `INIT_CLOCKS_I + INIT_CLOCKS_T`: all clocks of the initialization run. -/
abbrev initClocks : BitVec 6 := 33

/-- `KEYWORDS` = `IVWORDS` = 4: the words of a key and of an IV. -/
abbrev inputWords : BitVec 3 := 4

/-- The value at which `KLEN` and `IVLEN` stop: 5, "more than four" (spec/00_scope.md R8 `LENW`, spec/10_state.md R25). -/
abbrev lengthCap : BitVec 3 := 5

end Sys2Proof.Machine
end

