-- ==== Sys2Proof/Machine/Gf.lean ====
section
/-! DEFINITION. The Galois-field primitives (spec/40_gf_primitives.md). -/

namespace Sys2Proof.Machine

/-- `mulByConst(value, constant)`: the byte shifted left by one, XORed with the caller's `constant` when its high bit
was set (R110; the caller's constant always, spec/90_conflicts.md C1). -/
def mulByConst (value constant : Byte) : Byte :=
  if value.msb then (value <<< 1) ^^^ constant else value <<< 1

/-- `power(value, exponent, constant)`: `mulByConst(·, constant)` applied `exponent` times; exponent 0 is the identity
(R111). -/
def power (value : Byte) : Nat → Byte → Byte
  | 0, _ => value
  | n + 1, constant => mulByConst (power value n constant) constant

/-- `expandWord(byte)`: exponents 23, 245, 48, 239, lane 0 first, constant 0xA9 (R112; lane order is decision D8). -/
def expandWord (byte : Byte) : Word :=
  lanes (power byte 23 constA) (power byte 245 constA) (power byte 48 constA) (power byte 239 constA)

/-- `contractWord(byte)`: exponents 16, 39, 6, 64, lane 0 first, constant 0xA9 (R113; lane order is decision D8). -/
def contractWord (byte : Byte) : Word :=
  lanes (power byte 16 constA) (power byte 39 constA) (power byte 6 constA) (power byte 64 constA)

end Sys2Proof.Machine
end

