-- ==== Sys2Proof/Machine/Boxes.lean ====
section
/-! DEFINITION. The substitution boxes and the word transforms (spec/41_boxes.md), over any two tables. -/

namespace Sys2Proof.Machine

/-- `boxR(byte)`: the entry of `TABLE_R` at row `byte[7:4]`, column `byte[3:0]` (R130; the flattened index is the byte
itself, spec/20_memory.md R51). -/
def boxR (T : Tables) (byte : Byte) : Byte := T.r byte

/-- `boxQ(byte)`: the entry of `TABLE_Q` (R131). -/
def boxQ (T : Tables) (byte : Byte) : Byte := T.q byte

/-- The substitution step: a box applied to each of the four lanes (R132, R133, R136). -/
def substLanes (box : Byte → Byte) (w : Word) : Word :=
  lanes (box (lane0 w)) (box (lane1 w)) (box (lane2 w)) (box (lane3 w))

/-- The lane-mixing step on `t = lanes(t0, t1, t2, t3)`: each output lane is its own byte doubled with `constant`, XORed
with the other three bytes plain (R132 to R135: not the AES MixColumn). -/
def mixLanes (constant : Byte) (t : Word) : Word :=
  lanes
    (mulByConst (lane0 t) constant ^^^ lane1 t ^^^ lane2 t ^^^ lane3 t)
    (mulByConst (lane1 t) constant ^^^ lane2 t ^^^ lane3 t ^^^ lane0 t)
    (mulByConst (lane2 t) constant ^^^ lane3 t ^^^ lane0 t ^^^ lane1 t)
    (mulByConst (lane3 t) constant ^^^ lane0 t ^^^ lane1 t ^^^ lane2 t)

/-- `wordTransform1(word)`: `boxR` and constant 0x1B (R132). -/
def wordTransform1 (T : Tables) (w : Word) : Word := mixLanes constR (substLanes (boxR T) w)

/-- `wordTransform2(word)`: `boxQ` and constant 0x69 (R133). -/
def wordTransform2 (T : Tables) (w : Word) : Word := mixLanes constQ (substLanes (boxQ T) w)

end Sys2Proof.Machine
end

