-- ==== Sys2Proof/Machine/Fsm.lean ====
section
/-! DEFINITION. The finite-state machine: `FSM.clock` (spec/42_fsm.md). It has no opcode (spec/30_encoding.md R85). -/

namespace Sys2Proof.Machine

/-- The output `F = (s[15] +32 R1) ⊕ R2` of the current registers and cells (R150). -/
def fsmOutput (s : State) : Word := (s.cells.s15 + s.r1) ^^^ s.r2

/-- The next `R1`: `r = R2 +32 (R3 ⊕ s[5])` (R150). -/
def fsmNextR1 (s : State) : Word := s.r2 + (s.r3 ^^^ s.cells.s5)

/-- `FSM.clock()`: the output `F`, and the state with the three registers updated together from their old values
(R150, R151): `R3` from the old `R2`, `R2` from the old `R1`. No cell is written. -/
def fsmClock (T : Tables) (s : State) : Word × State :=
  (fsmOutput s,
    { s with r1 := fsmNextR1 s, r2 := wordTransform1 T s.r1, r3 := wordTransform2 T s.r2 })

end Sys2Proof.Machine
end

