-- ==== Sys2Proof/Machine/Lfsr.lean ====
section
/-! DEFINITION. The linear-feedback shift register: `LFSR.clock` (spec/43_lfsr.md). It has no opcode
(spec/30_encoding.md R85). -/

namespace Sys2Proof.Machine

/-- The mode argument of `LFSR.clock` (R162, spec/30_encoding.md R86). It is chosen at each call and stored nowhere. -/
inductive LfsrMode where
  /-- feedback includes the FSM output; the spec writes 1 -/
  | initialization
  /-- feedback excludes the FSM output; the spec writes 0 -/
  | keystream
  deriving DecidableEq, Repr

/-- The bit the spec writes for the mode, inside the controller only (spec/30_encoding.md R86). -/
def lfsrModeBit : LfsrMode → Bool
  | .initialization => true
  | .keystream => false

/-- `w ↦ (w << 8) ⊕ expandWord(w[31:24])`, the `s[0]` half of the feedback (R160, R161 terms 1 and 2). -/
def mulAlpha (w : Word) : Word := (w <<< 8) ^^^ expandWord (lane0 w)

/-- `w ↦ (w >> 8) ⊕ contractWord(w[7:0])`, the `s[11]` half of the feedback (R160, R161 terms 4 and 5; the shift is
decision D9, spec/90_conflicts.md C3). -/
def divAlpha (w : Word) : Word := (w >>> 8) ^^^ contractWord (lane3 w)

/-- The feedback word `v`, from the cells as they are before the shift (R160). -/
def lfsrFeedback (F : Word) (mode : LfsrMode) (c : Cells) : Word :=
  match mode with
  | .initialization => mulAlpha c.s0 ^^^ c.s2 ^^^ divAlpha c.s11 ^^^ F
  | .keystream => mulAlpha c.s0 ^^^ c.s2 ^^^ divAlpha c.s11

/-- All sixteen cells move down by one, cell 15 takes `v`, the old cell 0 is dropped (R160, R163). -/
def shiftCells (v : Word) (c : Cells) : Cells where
  s0 := c.s1
  s1 := c.s2
  s2 := c.s3
  s3 := c.s4
  s4 := c.s5
  s5 := c.s6
  s6 := c.s7
  s7 := c.s8
  s8 := c.s9
  s9 := c.s10
  s10 := c.s11
  s11 := c.s12
  s12 := c.s13
  s13 := c.s14
  s14 := c.s15
  s15 := v

/-- `LFSR.clock(F, mode)` on the cells (R160). -/
def clockCells (F : Word) (mode : LfsrMode) (c : Cells) : Cells := shiftCells (lfsrFeedback F mode c) c

/-- `LFSR.clock(F, mode)` (R160): only the cells change. -/
def lfsrClock (F : Word) (mode : LfsrMode) (s : State) : State := { s with cells := clockCells F mode s.cells }

end Sys2Proof.Machine
end

