-- ==== Sys2Proof/Machine/Ops.lean ====
section
/-! DEFINITION. The named operations the commands are made of: the port, responding, raising an exception, clearing,
pushing a word, loading a session, and the cipher clocks of initialization and generation. -/

namespace Sys2Proof.Machine

/-! ### The port -/

/-- The next event at the ports, and the state with it taken (log 2). -/
def takeEvent (s : State) : Option (PortEvent × State) :=
  match s.pending with
  | [] => none
  | e :: rest => some (e, { s with pending := rest })

/-- The host gives one more command word, before all that it has given already. -/
def giveCommand (cw : CommandWord) (s : State) : State := { s with pending := .command cw :: s.pending }

/-- `respond(code, data)` (spec/00_scope.md R18): the command ends, and the port shows its response. -/
def respond (code : Resp) (data : Word) (s : State) : State := { s with response := some ⟨code, data⟩ }

/-! ### Reset and clearing -/

/-- "Every item of state <- its reset value" (spec/10_state.md R35): the ten fields the spec gives the block. The ports
are no state of the block and stay. -/
def clearState (s : State) : State := { State.reset with pending := s.pending, response := s.response }

/-- The effect of `rst` (spec/70_reset_and_hazards.md R260, R261): every item of state takes its reset value, and no
response is given. The events the host gives later stay. -/
def assertRst (s : State) : State := { State.reset with pending := s.pending }

/-- "The buffers are cleared": `KLEN`, `IVLEN` and all eight words to 0 (spec/10_state.md R27). -/
def clearBuffers (s : State) : State :=
  { s with keyBuf := WordBuf.zero, ivBuf := WordBuf.zero, klen := 0, ivlen := 0 }

/-! ### Exceptions -/

/-- The complete list of synchronous exceptions (spec/60_exceptions.md R220). -/
inductive Exc where
  /-- LOAD or INIT found `KLEN ≠ 4` or `IVLEN ≠ 4` (R221, R222) -/
  | invalidInputLength
  /-- ISTEP, WARMUP or GEN in a phase that does not allow it (R223) -/
  | sequence
  /-- a reserved opcode (R224) -/
  | illegalCmd
  deriving DecidableEq, Repr

/-- TAKING AN EXCEPTION: `raise E` is `respond(E, 0)` after the state changes the rule of `E` prescribes
(spec/00_scope.md R18). "Entry is the response itself: nothing is saved, no mode changes, no mask changes, control goes
nowhere" (spec/60_exceptions.md R229). The length error puts the whole state to the reset state (R222); the other two
change no item of state (R223, R224). There is no return instruction and nothing to restore (R229). -/
def raise (e : Exc) (s : State) : State :=
  match e with
  | .invalidInputLength => respond .errInvalidInputLength 0 (clearState s)
  | .sequence => respond .errSequence 0 s
  | .illegalCmd => respond .errIllegalCmd 0 s

/-! ### Key and IV words -/

/-- Word `i` of a buffer written; an index past 3 writes nothing (no rule writes there: `KLEN < 4` is tested first,
spec/20_memory.md R61). -/
def setWord (b : WordBuf) (i : Nat) (w : Word) : WordBuf :=
  match i with
  | 0 => { b with w0 := w }
  | 1 => { b with w1 := w }
  | 2 => { b with w2 := w }
  | 3 => { b with w3 := w }
  | _ => b

/-- A push into a buffer whose length counter is `len`: the word is stored while `len < 4`, a later word is dropped
(spec/44_driver.md R178, R179, first line of the pseudocode). -/
def pushWord (b : WordBuf) (len : BitVec 3) (w : Word) : WordBuf :=
  if len < inputWords then setWord b len.toNat w else b

/-- The length counter after a push: it counts up to 5 (spec/44_driver.md R178, R179, second line). -/
def pushLen (len : BitVec 3) : BitVec 3 := if len < lengthCap then len + 1 else len

/-! ### Load -/

/-- LOAD's length test passes: `KLEN = 4` and `IVLEN = 4` (spec/60_exceptions.md R221). -/
abbrev lengthsValid (s : State) : Prop := s.klen = inputWords ∧ s.ivlen = inputWords

/-- The load formula of the sixteen cells from the key `k` and the IV `v` (spec/44_driver.md R181). -/
def loadCells (k v : WordBuf) : Cells where
  s0 := k.w0 ^^^ allOnes
  s1 := k.w1 ^^^ allOnes
  s2 := k.w2 ^^^ allOnes
  s3 := k.w3 ^^^ allOnes
  s4 := k.w0
  s5 := k.w1
  s6 := k.w2
  s7 := k.w3
  s8 := k.w0 ^^^ allOnes
  s9 := k.w1 ^^^ allOnes ^^^ v.w3
  s10 := k.w2 ^^^ allOnes ^^^ v.w2
  s11 := k.w3 ^^^ allOnes
  s12 := k.w0 ^^^ v.w1
  s13 := k.w1
  s14 := k.w2
  s15 := k.w3 ^^^ v.w0

/-- LOAD after its length test (spec/44_driver.md R181): cells by the formula, FSM registers 0, buffers cleared,
`PHASE` = `INITIALIZING`, `CNT` = 0. -/
def loadSession (s : State) : State :=
  { clearBuffers s with
    cells := loadCells s.keyBuf s.ivBuf
    r1 := 0
    r2 := 0
    r3 := 0
    phase := .initializing
    cnt := 0 }

/-! ### Cipher clocks -/

/-- One cipher clock: `FSM.clock` on the cells before the shift, then `LFSR.clock` with the `F` it returned
(spec/44_driver.md R182, spec/70_reset_and_hazards.md R270, R274). -/
def cipherClock (T : Tables) (mode : LfsrMode) (s : State) : State :=
  let (F, s') := fsmClock T s
  lfsrClock F mode s'

/-- The mode of the initialization clock numbered `CNT + 1`: initialization for the first 32, keystream for the 33rd
(spec/44_driver.md R182, R206). -/
def initMode (cnt : BitVec 6) : LfsrMode := if cnt < initClocksI then .initialization else .keystream

/-- One clock of the initialization run with its count, without a response: the pseudocode of ISTEP (spec/44_driver.md
R182). -/
def initClock (T : Tables) (s : State) : State :=
  let s' := cipherClock T (initMode s.cnt) s
  { s' with
    cnt := s'.cnt + 1
    phase := if s'.cnt + 1 = initClocks then .ready else s'.phase }

/-- `while CNT < 33 do initClock`, for at most `fuel` turns (spec/44_driver.md R183). -/
def initLoop (T : Tables) : Nat → State → State
  | 0, s => s
  | fuel + 1, s => if s.cnt < initClocks then initLoop T fuel (initClock T s) else s

/-- The loop of WARMUP (spec/44_driver.md R183). Each turn raises `CNT` by one, so 33 turns are always enough.
Irreducible, so that no unifier runs its 33 clocks by accident; `unfold` and the kernel see its body. -/
@[irreducible] def finishInit (T : Tables) (s : State) : State := initLoop T initClocks.toNat s

/-- The keystream word `z = F ⊕ s[0]` of the next GEN, with the `s[0]` of before the shift (spec/44_driver.md R185,
spec/70_reset_and_hazards.md R271). -/
def keystreamWord (s : State) : Word := fsmOutput s ^^^ s.cells.s0

/-- The state change of GEN (spec/44_driver.md R185): one cipher clock in keystream mode, `PHASE` = `GENERATING`. -/
def genClock (T : Tables) (s : State) : State := { cipherClock T .keystream s with phase := .generating }

end Sys2Proof.Machine
end

