-- ==== Sys2Proof/Machine/Controller.lean ====
section
/-! DEFINITION. The nine controller commands (spec/44_driver.md section 2). -/

namespace Sys2Proof.Machine

/-- NOP (R177). -/
def execNop (s : State) : Host.Outcome State Fault Refusal := .next (respond .ok 0 s)

/-- WRKEY word (R178). -/
def execWrkey (word : Word) (s : State) : Host.Outcome State Fault Refusal :=
  .next (respond .ok 0 { s with keyBuf := pushWord s.keyBuf s.klen word, klen := pushLen s.klen })

/-- WRIV word (R179). -/
def execWriv (word : Word) (s : State) : Host.Outcome State Fault Refusal :=
  .next (respond .ok 0 { s with ivBuf := pushWord s.ivBuf s.ivlen word, ivlen := pushLen s.ivlen })

/-- LOAD (R181); the length error is R221, R222. -/
def execLoad (s : State) : Host.Outcome State Fault Refusal :=
  if lengthsValid s then .next (respond .ok 0 (loadSession s)) else .next (raise .invalidInputLength s)

/-- ISTEP (R182); outside `INITIALIZING` `ERR_SEQUENCE` (R176, R223). -/
def execIstep (s : State) : Host.Outcome State Fault Refusal :=
  if s.phase = .initializing then .next (respond .ok 0 (initClock Config.tables s)) else .next (raise .sequence s)

/-- WARMUP (R183); outside `INITIALIZING` `ERR_SEQUENCE` (R176, R223). -/
def execWarmup (s : State) : Host.Outcome State Fault Refusal :=
  if s.phase = .initializing then .next (respond .ok 0 (finishInit Config.tables s)) else .next (raise .sequence s)

/-- INIT (R184): the pseudocode of LOAD, then that of WARMUP; the length error is raised before any cell is written. -/
def execInit (s : State) : Host.Outcome State Fault Refusal :=
  if lengthsValid s then .next (respond .ok 0 (finishInit Config.tables (loadSession s)))
  else .next (raise .invalidInputLength s)

/-- GEN (R185); in `UNINIT` and `INITIALIZING` `ERR_SEQUENCE` (R176, R223). -/
def execGen (s : State) : Host.Outcome State Fault Refusal :=
  if s.phase = .ready ∨ s.phase = .generating then .next (respond .ok (keystreamWord s) (genClock Config.tables s))
  else .next (raise .sequence s)

/-- DISCARD (R187). -/
def execDiscard (s : State) : Host.Outcome State Fault Refusal := .next (respond .ok 0 (clearState s))

end Sys2Proof.Machine
end

