-- ==== Sys2Proof/Machine/Units.lean ====
section
/-! DEFINITION. The eight unit-evaluation commands (spec/44_driver.md section 3, R190): each runs one combinational unit
on the operand, and reads and writes no state. -/

namespace Sys2Proof.Machine

/-- MULC value, constant (R191). -/
def execMulc (value constant : Byte) (s : State) : Host.Outcome State Fault Refusal :=
  .next (respond .ok (zext32 (mulByConst value constant)) s)

/-- POW value, exponent, constant (R192). -/
def execPow (value : Byte) (exponent : Nat) (constant : Byte) (s : State) : Host.Outcome State Fault Refusal :=
  .next (respond .ok (zext32 (power value exponent constant)) s)

/-- EXPAND byte (R193). -/
def execExpand (byte : Byte) (s : State) : Host.Outcome State Fault Refusal :=
  .next (respond .ok (expandWord byte) s)

/-- CONTRACT byte (R194). -/
def execContract (byte : Byte) (s : State) : Host.Outcome State Fault Refusal :=
  .next (respond .ok (contractWord byte) s)

/-- BOXR byte (R195). -/
def execBoxr (byte : Byte) (s : State) : Host.Outcome State Fault Refusal :=
  .next (respond .ok (zext32 (boxR Config.tables byte)) s)

/-- BOXQ byte (R196). -/
def execBoxq (byte : Byte) (s : State) : Host.Outcome State Fault Refusal :=
  .next (respond .ok (zext32 (boxQ Config.tables byte)) s)

/-- WT1 word (R197). -/
def execWt1 (word : Word) (s : State) : Host.Outcome State Fault Refusal :=
  .next (respond .ok (wordTransform1 Config.tables word) s)

/-- WT2 word (R198). -/
def execWt2 (word : Word) (s : State) : Host.Outcome State Fault Refusal :=
  .next (respond .ok (wordTransform2 Config.tables word) s)

end Sys2Proof.Machine
end

