-- ==== Sys2Proof/Machine/Dispatch.lean ====
section
/-! DEFINITION. exec: one arm per command (spec/30_encoding.md R84). -/

namespace Sys2Proof.Machine

def exec (i : Instr) (s : State) : Host.Outcome State Fault Refusal :=
  match i with
  -- the controller commands, opcodes 0x00 to 0x08
  | .nop => Sys2Proof.Machine.execNop s
  | .wrkey word => Sys2Proof.Machine.execWrkey word s
  | .wriv word => Sys2Proof.Machine.execWriv word s
  | .load => Sys2Proof.Machine.execLoad s
  | .istep => Sys2Proof.Machine.execIstep s
  | .warmup => Sys2Proof.Machine.execWarmup s
  | .init => Sys2Proof.Machine.execInit s
  | .gen => Sys2Proof.Machine.execGen s
  | .discard => Sys2Proof.Machine.execDiscard s
  -- the unit-evaluation commands, opcodes 0x10 to 0x17
  | .mulc value constant => Sys2Proof.Machine.execMulc value constant s
  | .pow value exponent constant => Sys2Proof.Machine.execPow value exponent constant s
  | .expand byte => Sys2Proof.Machine.execExpand byte s
  | .contract byte => Sys2Proof.Machine.execContract byte s
  | .boxr byte => Sys2Proof.Machine.execBoxr byte s
  | .boxq byte => Sys2Proof.Machine.execBoxq byte s
  | .wt1 word => Sys2Proof.Machine.execWt1 word s
  | .wt2 word => Sys2Proof.Machine.execWt2 word s

end Sys2Proof.Machine
end

