-- ==== Sys2Proof/Machine/Step.lean ====
section
/-! DEFINITION. One step of the block: the next event at the ports, whole. -/

namespace Sys2Proof.Machine

/-- One step (spec/44_driver.md R175, spec/70_reset_and_hazards.md R261). With nothing at the ports the block is idle, and
"idle changes nothing" (spec/60_exceptions.md R235). `rst` puts the state to the reset state. A command word is decoded;
a reserved opcode raises `ERR_ILLEGAL_CMD` (R224), any other runs its command. -/
def step (s : State) : Host.Outcome State Fault Refusal :=
  match takeEvent s with
  | none => .next s
  | some (.rst, s') => .next (assertRst s')
  | some (.command cw, s') =>
    match decode cw with
    | .ok i => exec i s'
    | .error _ => .next (raise .illegalCmd s')

/-- `s` with the command word whose bits are `w` given at the command port, before anything else: the very next step
takes it. The block fetches no instructions (spec/10_state.md R28); a program is the sequence of commands the host gives
(spec/95_test_vectors.md section 3, spec/44_driver.md R207). Assumption log 4. -/
def State.withFetchWord (s : State) (nbits w : Nat) : State := giveCommand (tableCommandWord nbits w) s

end Sys2Proof.Machine
end

