-- ==== Sys2Proof/Safety.lean ====
section
/-! DEFINITION. What counts as a safe run, in the terms the statements use: the invariant of the sequencing state, what
the host can bring about, runs of commands, and what two states must share to be told apart by no response. -/

namespace Sys2Proof.Machine

/-! ### Reading the indexed stores -/

/-- `s[i]` (spec/00_scope.md R18). -/
def cellAt (c : Cells) (i : Fin 16) : Word :=
  match i.val with
  | 0 => c.s0
  | 1 => c.s1
  | 2 => c.s2
  | 3 => c.s3
  | 4 => c.s4
  | 5 => c.s5
  | 6 => c.s6
  | 7 => c.s7
  | 8 => c.s8
  | 9 => c.s9
  | 10 => c.s10
  | 11 => c.s11
  | 12 => c.s12
  | 13 => c.s13
  | 14 => c.s14
  | _ => c.s15

/-- `KEYBUF[i]`, `IVBUF[i]` (spec/00_scope.md R18). -/
def bufAt (b : WordBuf) (i : Fin 4) : Word :=
  match i.val with
  | 0 => b.w0
  | 1 => b.w1
  | 2 => b.w2
  | _ => b.w3

/-- Two cell files XORed cell by cell, for the linearity of `LFSR.clock` (spec/43_lfsr.md R164). -/
def xorCells (a b : Cells) : Cells where
  s0 := a.s0 ^^^ b.s0
  s1 := a.s1 ^^^ b.s1
  s2 := a.s2 ^^^ b.s2
  s3 := a.s3 ^^^ b.s3
  s4 := a.s4 ^^^ b.s4
  s5 := a.s5 ^^^ b.s5
  s6 := a.s6 ^^^ b.s6
  s7 := a.s7 ^^^ b.s7
  s8 := a.s8 ^^^ b.s8
  s9 := a.s9 ^^^ b.s9
  s10 := a.s10 ^^^ b.s10
  s11 := a.s11 ^^^ b.s11
  s12 := a.s12 ^^^ b.s12
  s13 := a.s13 ^^^ b.s13
  s14 := a.s14 ^^^ b.s14
  s15 := a.s15 ^^^ b.s15

/-! ### The invariant -/

/-- What every step keeps: the invariants that tie `CNT` to `PHASE` (spec/10_state.md R30), the ranges of the length
counters (R25, R26, R31), that words not pushed read 0 (from R25 to R27), and that without a session the cells and FSM
registers hold their reset values (from R29 and R35, R36). -/
structure SessionInv (s : State) : Prop where
  klen_le : s.klen.toNat ≤ 5
  ivlen_le : s.ivlen.toNat ≤ 5
  key_unpushed : ∀ i : Fin 4, s.klen.toNat ≤ i.val → bufAt s.keyBuf i = 0
  iv_unpushed : ∀ i : Fin 4, s.ivlen.toNat ≤ i.val → bufAt s.ivBuf i = 0
  uninit_cnt : s.phase = .uninit → s.cnt = 0
  uninit_session : s.phase = .uninit → s.cells = Cells.zero ∧ s.r1 = 0 ∧ s.r2 = 0 ∧ s.r3 = 0
  initializing_cnt : s.phase = .initializing → s.cnt.toNat ≤ 32
  ready_cnt : s.phase = .ready → s.cnt = 33
  generating_cnt : s.phase = .generating → s.cnt = 33

/-- The states a host can bring about: from reset, by steps and by giving events at the ports (spec/00_scope.md R10). -/
inductive Reachable : State → Prop where
  | reset : Reachable State.reset
  | step {s t : State} : Reachable s → Machine.step s = .next t → Reachable t
  | give {s : State} (events : List PortEvent) : Reachable s → Reachable { s with pending := s.pending ++ events }

/-! ### Classes of commands -/

/-- The eight unit-evaluation commands (spec/44_driver.md R190). -/
def isUnit : Instr → Bool
  | .nop => false
  | .wrkey _ => false
  | .wriv _ => false
  | .load => false
  | .istep => false
  | .warmup => false
  | .init => false
  | .gen => false
  | .discard => false
  | .mulc _ _ => true
  | .pow _ _ _ => true
  | .expand _ => true
  | .contract _ => true
  | .boxr _ => true
  | .boxq _ => true
  | .wt1 _ => true
  | .wt2 _ => true

/-- The entries "SEQ" of the table of phases (spec/44_driver.md R176). -/
def seqForbidden (i : Instr) (p : Phase) : Prop :=
  ((i = .istep ∨ i = .warmup) ∧ p ≠ .initializing) ∨ (i = .gen ∧ (p = .uninit ∨ p = .initializing))

/-! ### Runs of commands -/

/-- Commands given one after another, stopping at the first that answers no next state. -/
def execAll : List Instr → State → Host.Outcome State Fault Refusal
  | [], s => .next s
  | i :: is, s =>
    match exec i s with
    | .next t => execAll is t
    | .fault r => .fault r
    | .refused r => .refused r

/-- The result word on the response port; 0 where no response is shown. -/
def rdataOf (s : State) : Word :=
  match s.response with
  | some r => r.rdata
  | none => 0

/-- `generate(session, n)`: GEN `n` times, the words in order and the state after them (spec/44_driver.md R201). -/
def generate : Nat → State → Option (List Word × State)
  | 0, s => some ([], s)
  | n + 1, s =>
    match exec .gen s with
    | .next t => (generate n t).map fun p => (rdataOf t :: p.1, p.2)
    | .fault _ => none
    | .refused _ => none

/-! ### What two states share -/

/-- Two states hold the same items of state the spec gives the block; their ports may differ. -/
def SameState (s t : State) : Prop :=
  s.cells = t.cells ∧ s.r1 = t.r1 ∧ s.r2 = t.r2 ∧ s.r3 = t.r3 ∧ s.phase = t.phase ∧ s.cnt = t.cnt ∧
    s.keyBuf = t.keyBuf ∧ s.ivBuf = t.ivBuf ∧ s.klen = t.klen ∧ s.ivlen = t.ivlen

/-- Two states that differ at most in the cells and FSM registers of a machine without a session (spec/10_state.md R36,
spec/70_reset_and_hazards.md R263). -/
def SameButUnloaded (s t : State) : Prop :=
  s.phase = t.phase ∧ s.cnt = t.cnt ∧ s.keyBuf = t.keyBuf ∧ s.ivBuf = t.ivBuf ∧ s.klen = t.klen ∧
    s.ivlen = t.ivlen ∧ s.pending = t.pending ∧ s.response = t.response ∧
    (s.phase ≠ .uninit → s.cells = t.cells ∧ s.r1 = t.r1 ∧ s.r2 = t.r2 ∧ s.r3 = t.r3)

end Sys2Proof.Machine
end

