-- ==== Sys2Proof/Certificates/Slice0/Obligations.lean ====
section
/-! DEFINITION. The statements for the provers, each a `def Obligations.<Name> : Prop`; OBLIGATIONS.json lists them. -/

open Sys2Proof Sys2Proof.Machine

/-! ### Encoding -/

/-- Decode and encode agree on every well-formed command (spec/30_encoding.md R82 to R84, R87). -/
def Obligations.DecodeUndoesEncode : Prop :=
  ∀ i : Instr, i.WellFormed → decode (encode i) = .ok i

/-- What the decoder reads is well formed, and its encoding is the word with the ignored bits cleared: no bit that R83
gives to a field is dropped. -/
def Obligations.EncodeRecoversUsedBits : Prop :=
  ∀ (cw : CommandWord) (i : Instr), decode cw = .ok i → i.WellFormed ∧ encode i = cw &&& usedBits i

/-- Bits marked "ignored" do not take part in decoding and do not change the result (R83). The port is the model's
list of events (log 2). -/
def Obligations.IgnoredBitsChangeNothing : Prop :=
  ∀ (s : State) (cw cw' : CommandWord) (i : Instr),
    decode cw = .ok i → cw' &&& usedBits i = cw &&& usedBits i →
      decode cw' = .ok i ∧ step (giveCommand cw' s) = step (giveCommand cw s)

/-- The decoder is total: a command word selects the row of R84 that its masked bits match, or its opcode is one of the
reserved values of R88 and it is rejected by name. -/
def Obligations.CommandWordSelectsItsRowOrIsReserved : Prop :=
  ∀ cw : CommandWord,
    (∃ i, decode cw = .ok i ∧ cw &&& 0xFF00000000#40 = rowMatch i) ∨
      (decode cw = .error (.reservedOpcode (cw.extractLsb' 32 8)) ∧
        ((0x09 ≤ cw.toNat / 2 ^ 32 ∧ cw.toNat / 2 ^ 32 ≤ 0x0F) ∨ 0x18 ≤ cw.toNat / 2 ^ 32))

/-- Command words written out bit by bit from the opcode map and the operand formats (the words of
spec/95_test_vectors.md V55 and P6) decode to the commands they stand for. -/
def Obligations.SampleCommandWordsDecode : Prop :=
  decode 0x0000000000#40 = .ok .nop ∧
  decode 0x012BD6459F#40 = .ok (.wrkey 0x2BD6459F#32) ∧
  decode 0x02EA024714#40 = .ok (.wriv 0xEA024714#32) ∧
  decode 0x0700000000#40 = .ok .gen ∧
  decode 0x10FFFF1B80#40 = .ok (.mulc 0x80#8 0x1B#8) ∧
  decode 0x110017A901#40 = .ok (.pow 0x01#8 23 0xA9#8) ∧
  decode 0x14ABCDEF53#40 = .ok (.boxr 0x53#8) ∧
  decode 0x17FFFFFFFF#40 = .ok (.wt2 0xFFFFFFFF#32) ∧
  decode 0x0900000000#40 = .error (.reservedOpcode 0x09#8)

/-! ### One step -/

/-- A step takes the next command word and runs the command it decodes to, with nothing else around it (R175). The
list of events at the ports is the model's (log 2). -/
def Obligations.StepRunsTheDecodedCommand : Prop :=
  ∀ (s : State) (cw : CommandWord) (rest : List PortEvent) (i : Instr),
    s.pending = .command cw :: rest → decode cw = .ok i → step s = exec i { s with pending := rest }

/-- A reserved opcode, whatever the operand and the phase, changes no item of state and answers `ERR_ILLEGAL_CMD` with
result word 0 (R224). That the step takes the command off a list of events is the model's choice (log 2), and so is that
the response stands in the state (log 3). -/
def Obligations.ReservedOpcodeAnswersIllegal : Prop :=
  ∀ (s : State) (cw : CommandWord) (rest : List PortEvent),
    s.pending = .command cw :: rest →
    ((0x09 ≤ cw.toNat / 2 ^ 32 ∧ cw.toNat / 2 ^ 32 ≤ 0x0F) ∨ 0x18 ≤ cw.toNat / 2 ^ 32) →
      step s = .next { s with pending := rest, response := some ⟨.errIllegalCmd, 0⟩ }

/-- MODEL'S CHOICE (log 2): with nothing given at the ports a step changes nothing; the spec says that idle changes
nothing for however long it lasts (R235). -/
def Obligations.IdleChangesNothing : Prop :=
  ∀ s : State, s.pending = [] → step s = .next s

/-- `rst` gives every item of state its reset value and no response (R260, R261); the events given after it stay, which
is the model's port (log 2), and the response port is emptied, which is the model's choice (log 3). -/
def Obligations.RstRestoresResetState : Prop :=
  ∀ (s : State) (rest : List PortEvent), s.pending = .rst :: rest →
    ∃ t, step s = .next t ∧ SameState t State.reset ∧ t.status = 0 ∧ t.pending = rest ∧ t.response = none

/-- The reset state (R35): every item 0, `PHASE` = `UNINIT`, `STATUS` = 0x0000. -/
def Obligations.ResetStateIsAllZero : Prop :=
  (∀ i, cellAt State.reset.cells i = 0) ∧ State.reset.r1 = 0 ∧ State.reset.r2 = 0 ∧ State.reset.r3 = 0 ∧
  State.reset.phase = .uninit ∧ phaseCode State.reset.phase = 0 ∧ State.reset.cnt = 0 ∧
  (∀ i, bufAt State.reset.keyBuf i = 0) ∧ (∀ i, bufAt State.reset.ivBuf i = 0) ∧
  State.reset.klen = 0 ∧ State.reset.ivlen = 0 ∧ State.reset.status = 0x0000

/-- Every step completes: no fault and no refusal, as the step function is total (R175); and after a step that takes a
command some response stands on the port, as every command ends with one (R81). MODEL'S CHOICE: that a step exists with
nothing at the ports and that the command leaves the list of events (log 2), and that the response is part of the state
(log 3). Which response a command gives is `EachCommandAnswersTheCodeItsRulesName`'s. -/
def Obligations.EveryStepCompletes : Prop :=
  ∀ s : State, ∃ t, step s = .next t ∧
    ∀ cw rest, s.pending = .command cw :: rest → t.pending = rest ∧ ∃ r, t.response = some r

/-! ### Invariants and `STATUS` -/

/-- Every step keeps the invariant of the sequencing state, the buffers and the empty session. The spec infers the
clauses on `CNT` itself (10_state.md R30, "[derived: ...]"); those on the buffers and on the empty session are inferred
here from R25 to R27, R29 and R35. The premise speaks of the state before the step alone. -/
def Obligations.StepKeepsSessionInv : Prop :=
  ∀ s t : State, SessionInv s → step s = .next t → SessionInv t

/-- The invariant of `StepKeepsSessionInv` holds in the reset state (10_state.md section 3: "true after reset"). -/
def Obligations.ResetHasSessionInv : Prop := SessionInv State.reset

/-- In every state a host can bring about, no `STATUS` field takes a value that "never occurs" (10_state.md section 4);
the ties between `CNT` and `PHASE` are the spec's own inference (10_state.md R30). -/
def Obligations.ReachableStatusInRange : Prop :=
  ∀ s : State, Reachable s →
    (s.status.extractLsb' 2 3).toNat ≤ 5 ∧ (s.status.extractLsb' 5 3).toNat ≤ 5 ∧
    (s.status.extractLsb' 8 6).toNat ≤ 33 ∧ s.status.extractLsb' 14 2 = 0 ∧
    (s.status.extractLsb' 0 2 = 0 → s.status.extractLsb' 8 6 = 0) ∧
    (s.status.extractLsb' 0 2 = 1 → (s.status.extractLsb' 8 6).toNat ≤ 32) ∧
    (2 ≤ (s.status.extractLsb' 0 2).toNat → s.status.extractLsb' 8 6 = 33)

/-- The layout of `STATUS` (R31) and the numbers of `PHASE` (R29). -/
def Obligations.StatusLayout : Prop :=
  ∀ s : State,
    s.status.extractLsb' 0 2 = (match s.phase with
      | .uninit => 0#2 | .initializing => 1#2 | .ready => 2#2 | .generating => 3#2) ∧
    s.status.extractLsb' 2 3 = s.klen ∧ s.status.extractLsb' 5 3 = s.ivlen ∧
    s.status.extractLsb' 8 6 = s.cnt ∧ s.status.extractLsb' 14 2 = 0

/-- How `PHASE` moves (R29): for each value, exactly when a command leaves the machine in it; and `rst` enters
`UNINIT`. The premise `SessionInv` is `StepKeepsSessionInv`'s. -/
def Obligations.PhaseMovesAsTheTableSays : Prop :=
  (∀ (i : Instr) (s : State), SessionInv s → ∃ t, exec i s = .next t ∧
    (t.phase = .uninit ↔
      i = .discard ∨ ((i = .load ∨ i = .init) ∧ ¬(s.klen = 4 ∧ s.ivlen = 4)) ∨
        (s.phase = .uninit ∧ i ≠ .load ∧ i ≠ .init)) ∧
    (t.phase = .initializing ↔
      (i = .load ∧ s.klen = 4 ∧ s.ivlen = 4 ∧ t.cnt = 0) ∨
        (s.phase = .initializing ∧ i ≠ .load ∧ i ≠ .init ∧ i ≠ .discard ∧ i ≠ .warmup ∧
          ¬(i = .istep ∧ s.cnt = 32))) ∧
    (t.phase = .ready ↔
      (s.phase = .initializing ∧ (i = .warmup ∨ (i = .istep ∧ s.cnt = 32))) ∨
        (i = .init ∧ s.klen = 4 ∧ s.ivlen = 4) ∨
        (s.phase = .ready ∧ i ≠ .load ∧ i ≠ .init ∧ i ≠ .discard ∧ i ≠ .gen)) ∧
    (t.phase = .generating ↔
      (i = .gen ∧ s.phase = .ready) ∨
        (s.phase = .generating ∧ i ≠ .load ∧ i ≠ .init ∧ i ≠ .discard))) ∧
  (∀ (s : State) (rest : List PortEvent), s.pending = .rst :: rest → ∃ t, step s = .next t ∧ t.phase = .uninit)

/-! ### Galois-field primitives -/

/-- `mulByConst` (R110), read as numbers: doubling, reduced by the caller's constant exactly when the high bit was set;
and its corner cases. -/
def Obligations.MulByConstDoublesAndReduces : Prop :=
  ∀ v c : Byte,
    (v.toNat < 128 → (mulByConst v c).toNat = 2 * v.toNat) ∧
    (128 ≤ v.toNat → (mulByConst v c).toNat = (2 * v.toNat - 256) ^^^ c.toNat) ∧
    mulByConst 0 c = 0 ∧ mulByConst v 0 = v <<< 1

/-- `power` (R111) applies `mulByConst` exponent times, exponent 0 being the identity; and its corner cases. -/
def Obligations.PowerRepeatsDoubling : Prop :=
  ∀ (v c : Byte) (n : Nat),
    power v 0 c = v ∧ power v (n + 1) c = mulByConst (power v n c) c ∧
    power v n c = (fun r => mulByConst r c)^[n] v ∧ power 0 n c = 0 ∧ power v 1 c = mulByConst v c

/-- `expandWord` (R112): exponents 23, 245, 48, 239, most significant lane first, generator constant 0xA9. -/
def Obligations.ExpandWordPacksFourPowers : Prop :=
  (∀ b : Byte, expandWord b =
    ((power b 23 0xA9).setWidth 32 <<< 24) ||| ((power b 245 0xA9).setWidth 32 <<< 16) |||
      ((power b 48 0xA9).setWidth 32 <<< 8) ||| (power b 239 0xA9).setWidth 32) ∧
  expandWord 0x00 = 0x00000000 ∧ expandWord 0x01 = 0xE19FCF13 ∧ expandWord 0xFF = 0x3F53B5EB

/-- `contractWord` (R113): exponents 16, 39, 6, 64, most significant lane first, generator constant 0xA9. -/
def Obligations.ContractWordPacksFourPowers : Prop :=
  (∀ b : Byte, contractWord b =
    ((power b 16 0xA9).setWidth 32 <<< 24) ||| ((power b 39 0xA9).setWidth 32 <<< 16) |||
      ((power b 6 0xA9).setWidth 32 <<< 8) ||| (power b 64 0xA9).setWidth 32) ∧
  contractWord 0x00 = 0x00000000 ∧ contractWord 0x01 = 0x180F40CD ∧ contractWord 0xFF = 0xB6F3A5E2

/-- Linearity over XOR for a fixed constant, and the sixteen basis words: the spec's own inference from R110 to R113
(40_gf_primitives.md section 2). -/
def Obligations.GaloisPrimitivesAreLinear : Prop :=
  (∀ a b c : Byte, mulByConst (a ^^^ b) c = mulByConst a c ^^^ mulByConst b c) ∧
  (∀ (a b c : Byte) (n : Nat), power (a ^^^ b) n c = power a n c ^^^ power b n c) ∧
  (∀ a b : Byte, expandWord (a ^^^ b) = expandWord a ^^^ expandWord b) ∧
  (∀ a b : Byte, contractWord (a ^^^ b) = contractWord a ^^^ contractWord b) ∧
  (∀ b : Byte, expandWord b =
    (List.range 8).foldl (fun acc k => if b.getLsbD k then acc ^^^ expandWord (1 <<< k) else acc) 0) ∧
  (∀ b : Byte, contractWord b =
    (List.range 8).foldl (fun acc k => if b.getLsbD k then acc ^^^ contractWord (1 <<< k) else acc) 0) ∧
  (List.range 8).map (fun k => expandWord (1 <<< k)) =
    [0xE19FCF13, 0x6B973726, 0xD6876E4C, 0x05A7DC98, 0x0AE71199, 0x1467229B, 0x28CE449F, 0x50358897] ∧
  (List.range 8).map (fun k => contractWord (1 <<< k)) =
    [0x180F40CD, 0x301E8033, 0x603CA966, 0xC078FBCC, 0x29F05F31, 0x5249BE62, 0xA492D5C4, 0xE18D0321]

/-- Composition of exponents, the periods of the three doubling maps on every non-zero byte, and that doubling by an odd
constant is a bijection on bytes: the spec's own inference from R110 and R111 (40_gf_primitives.md section 2). -/
def Obligations.PowerComposesWithPeriods : Prop :=
  (∀ (v c : Byte) (a b : Nat), a + b ≤ 255 → power (power v a c) b c = power v (a + b) c) ∧
  (∀ (v : Byte) (n : Nat), v ≠ 0 → (power v n 0xA9 = v ↔ 255 ∣ n)) ∧
  (∀ (v : Byte) (n : Nat), v ≠ 0 → (power v n 0x69 = v ↔ 255 ∣ n)) ∧
  (∀ (v : Byte) (n : Nat), v ≠ 0 → (power v n 0x1B = v ↔ 51 ∣ n)) ∧
  (∀ v : Byte, power v 255 0xA9 = v ∧ power v 255 0x69 = v ∧ power v 51 0x1B = v) ∧
  (∀ c : Byte, c.getLsbD 0 = true → Function.Bijective (fun v => mulByConst v c))

/-- The two word maps of the LFSR feedback are inverse to each other on all words, as multiplication by α and by α⁻¹
must be: the spec's own inference from R112 and R113 (40_gf_primitives.md section 2). -/
def Obligations.FeedbackWordMapsAreInverse : Prop :=
  ∀ w : Word,
    (let u := (w <<< 8) ^^^ expandWord (w.extractLsb' 24 8)
     (u >>> 8) ^^^ contractWord (u.extractLsb' 0 8) = w) ∧
    (let u := (w >>> 8) ^^^ contractWord (w.extractLsb' 0 8)
     (u <<< 8) ^^^ expandWord (u.extractLsb' 24 8) = w)

/-! ### Boxes and word transforms, for every pair of tables -/

/-- `wordTransform1` lane by lane (R132), each lane one doubled and three plain substituted bytes, with constant 0x1B;
and the corner case of four equal bytes. -/
def Obligations.WordTransform1MixesFourLanes : Prop :=
  ∀ (T : Tables) (w : Word),
    (let t0 := T.r (w.extractLsb' 24 8)
     let t1 := T.r (w.extractLsb' 16 8)
     let t2 := T.r (w.extractLsb' 8 8)
     let t3 := T.r (w.extractLsb' 0 8)
     wordTransform1 T w =
       ((mulByConst t0 0x1B ^^^ t1 ^^^ t2 ^^^ t3).setWidth 32 <<< 24) |||
       ((mulByConst t1 0x1B ^^^ t2 ^^^ t3 ^^^ t0).setWidth 32 <<< 16) |||
       ((mulByConst t2 0x1B ^^^ t3 ^^^ t0 ^^^ t1).setWidth 32 <<< 8) |||
       (mulByConst t3 0x1B ^^^ t0 ^^^ t1 ^^^ t2).setWidth 32) ∧
    ∀ b : Byte, let r := mulByConst (T.r b) 0x1B ^^^ T.r b
      wordTransform1 T (b ++ b ++ b ++ b) = r ++ r ++ r ++ r

/-- `wordTransform2` lane by lane (R133): the same with `boxQ` and constant 0x69. -/
def Obligations.WordTransform2MixesFourLanes : Prop :=
  ∀ (T : Tables) (w : Word),
    (let t0 := T.q (w.extractLsb' 24 8)
     let t1 := T.q (w.extractLsb' 16 8)
     let t2 := T.q (w.extractLsb' 8 8)
     let t3 := T.q (w.extractLsb' 0 8)
     wordTransform2 T w =
       ((mulByConst t0 0x69 ^^^ t1 ^^^ t2 ^^^ t3).setWidth 32 <<< 24) |||
       ((mulByConst t1 0x69 ^^^ t2 ^^^ t3 ^^^ t0).setWidth 32 <<< 16) |||
       ((mulByConst t2 0x69 ^^^ t3 ^^^ t0 ^^^ t1).setWidth 32 <<< 8) |||
       (mulByConst t3 0x69 ^^^ t0 ^^^ t1 ^^^ t2).setWidth 32) ∧
    ∀ b : Byte, let r := mulByConst (T.q b) 0x69 ^^^ T.q b
      wordTransform2 T (b ++ b ++ b ++ b) = r ++ r ++ r ++ r

/-- The lane-mixing step is linear and a bijection on words for both constants, by the lane formula
`r_i = u(t_i) ⊕ S`; hence a word transform is a bijection exactly when its table is a permutation: the spec's own
inference from R134 and the linearity of `mulByConst` (41_boxes.md section 3). -/
def Obligations.LaneMixingIsALinearBijection : Prop :=
  (∀ c : Byte, c = 0x1B ∨ c = 0x69 →
    (∀ a b : Word, mixLanes c (a ^^^ b) = mixLanes c a ^^^ mixLanes c b) ∧
    Function.Bijective (mixLanes c) ∧
    Function.Bijective (fun b : Byte => mulByConst b c ^^^ b) ∧
    ∀ t0 t1 t2 t3 : Byte,
      let S := t0 ^^^ t1 ^^^ t2 ^^^ t3
      let u := fun b : Byte => mulByConst b c ^^^ b
      mixLanes c (t0 ++ t1 ++ t2 ++ t3) = (u t0 ^^^ S) ++ (u t1 ^^^ S) ++ (u t2 ^^^ S) ++ (u t3 ^^^ S) ∧
      (u t0 ^^^ S) ^^^ (u t1 ^^^ S) ^^^ (u t2 ^^^ S) ^^^ (u t3 ^^^ S) = u S) ∧
  (∀ T : Tables, (Function.Bijective (wordTransform1 T) ↔ Function.Bijective T.r) ∧
    (Function.Bijective (wordTransform2 T) ↔ Function.Bijective T.q))

/-! ### FSM and LFSR -/

/-- `FSM.clock` (R150): the output and the new registers from the old registers and the cells; nothing else changes. -/
def Obligations.FsmClockUpdatesTogether : Prop :=
  ∀ (T : Tables) (s : State),
    fsmClock T s =
      ((s.cells.s15 + s.r1) ^^^ s.r2,
        { s with
          r1 := s.r2 + (s.r3 ^^^ s.cells.s5)
          r2 := wordTransform1 T s.r1
          r3 := wordTransform2 T s.r2 })

/-- `LFSR.clock` (R160, R163): every cell takes its upper neighbour's old value, cell 15 takes the feedback word of the
old cells, with `F` in it in initialization mode only; nothing but the cells changes. -/
def Obligations.LfsrClockShiftsAndFeedsBack : Prop :=
  ∀ (F : Word) (mode : LfsrMode) (s : State),
    let v := (s.cells.s0 <<< 8) ^^^ expandWord (s.cells.s0.extractLsb' 24 8) ^^^ s.cells.s2 ^^^
      (s.cells.s11 >>> 8) ^^^ contractWord (s.cells.s11.extractLsb' 0 8)
    (∀ i : Fin 15, cellAt (lfsrClock F mode s).cells i.castSucc = cellAt s.cells i.succ) ∧
    cellAt (lfsrClock F mode s).cells 15 = (if mode = .initialization then v ^^^ F else v) ∧
    { lfsrClock F mode s with cells := s.cells } = s

/-- In keystream mode `LFSR.clock` does not use `F` and is linear over XOR; in either mode, for each `F`, it is a
bijection on the sixteen cells: the spec's own inference from R160 (43_lfsr.md). -/
def Obligations.LfsrClockIsALinearBijection : Prop :=
  (∀ (F : Word) (a b : Cells),
    clockCells F .keystream (xorCells a b) = xorCells (clockCells F .keystream a) (clockCells F .keystream b)) ∧
  (∀ (F F' : Word) (a : Cells), clockCells F .keystream a = clockCells F' .keystream a) ∧
  (∀ (F : Word) (mode : LfsrMode), Function.Bijective (clockCells F mode))

/-! ### Controller commands: encoding, result and frame -/

/-- NOP (R177): the state is unchanged, the response is OK with 0. -/
def Obligations.NopAnswersOk : Prop :=
  (∀ operand : Word, decode (0x00#8 ++ operand) = .ok .nop) ∧
  ∀ s : State, exec .nop s = .next { s with response := some ⟨.ok, 0⟩ }

/-- WRKEY (R178): the word goes to `KEYBUF[KLEN]` while `KLEN < 4`, `KLEN` counts up to 5, nothing else changes. -/
def Obligations.WrkeyPushesOneWord : Prop :=
  (∀ word : Word, decode (0x01#8 ++ word) = .ok (.wrkey word)) ∧
  ∀ (s : State) (word : Word),
    exec (.wrkey word) s = .next { s with
      keyBuf := ⟨if s.klen = 0 then word else s.keyBuf.w0, if s.klen = 1 then word else s.keyBuf.w1,
        if s.klen = 2 then word else s.keyBuf.w2, if s.klen = 3 then word else s.keyBuf.w3⟩
      klen := if s.klen.toNat < 5 then s.klen + 1 else s.klen
      response := some ⟨.ok, 0⟩ }

/-- WRIV (R179): the same for `IVBUF` and `IVLEN`; and between a key word and an IV word the order does not matter. -/
def Obligations.WrivPushesOneWord : Prop :=
  (∀ word : Word, decode (0x02#8 ++ word) = .ok (.wriv word)) ∧
  (∀ (s : State) (word : Word),
    exec (.wriv word) s = .next { s with
      ivBuf := ⟨if s.ivlen = 0 then word else s.ivBuf.w0, if s.ivlen = 1 then word else s.ivBuf.w1,
        if s.ivlen = 2 then word else s.ivBuf.w2, if s.ivlen = 3 then word else s.ivBuf.w3⟩
      ivlen := if s.ivlen.toNat < 5 then s.ivlen + 1 else s.ivlen
      response := some ⟨.ok, 0⟩ }) ∧
  ∀ (s : State) (k v : Word), execAll [.wrkey k, .wriv v] s = execAll [.wriv v, .wrkey k] s

/-- LOAD (R181) with four words of each kind, in any phase: the cells by the load formula, FSM registers 0, buffers
cleared, `INITIALIZING`, `CNT` 0. With another count it raises the length error, and the state is the reset state. -/
def Obligations.LoadFillsTheCells : Prop :=
  (∀ operand : Word, decode (0x03#8 ++ operand) = .ok .load) ∧
  (∀ s : State, s.klen = 4 → s.ivlen = 4 →
    exec .load s = .next { s with
      cells := ⟨s.keyBuf.w0 ^^^ 0xFFFFFFFF, s.keyBuf.w1 ^^^ 0xFFFFFFFF, s.keyBuf.w2 ^^^ 0xFFFFFFFF,
        s.keyBuf.w3 ^^^ 0xFFFFFFFF, s.keyBuf.w0, s.keyBuf.w1, s.keyBuf.w2, s.keyBuf.w3,
        s.keyBuf.w0 ^^^ 0xFFFFFFFF, s.keyBuf.w1 ^^^ 0xFFFFFFFF ^^^ s.ivBuf.w3,
        s.keyBuf.w2 ^^^ 0xFFFFFFFF ^^^ s.ivBuf.w2, s.keyBuf.w3 ^^^ 0xFFFFFFFF,
        s.keyBuf.w0 ^^^ s.ivBuf.w1, s.keyBuf.w1, s.keyBuf.w2, s.keyBuf.w3 ^^^ s.ivBuf.w0⟩
      r1 := 0
      r2 := 0
      r3 := 0
      phase := .initializing
      cnt := 0
      keyBuf := ⟨0, 0, 0, 0⟩
      ivBuf := ⟨0, 0, 0, 0⟩
      klen := 0
      ivlen := 0
      response := some ⟨.ok, 0⟩ }) ∧
  ∀ s : State, ¬(s.klen = 4 ∧ s.ivlen = 4) → ∃ t, exec .load s = .next t ∧ SameState t State.reset ∧
    t.response = some ⟨.errInvalidInputLength, 0⟩ ∧ t.pending = s.pending

/-- ISTEP (R182) in `INITIALIZING`: one cipher clock, its LFSR clock in initialization mode while `CNT < 32` and in
keystream mode, `F` unused, at the 33rd; `CNT` rises, and `READY` is entered when it becomes 33. -/
def Obligations.IstepRunsOneCipherClock : Prop :=
  (∀ operand : Word, decode (0x04#8 ++ operand) = .ok .istep) ∧
  (∀ s : State, s.phase = .initializing →
    let F := (s.cells.s15 + s.r1) ^^^ s.r2
    let v := (s.cells.s0 <<< 8) ^^^ expandWord (s.cells.s0.extractLsb' 24 8) ^^^ s.cells.s2 ^^^
      (s.cells.s11 >>> 8) ^^^ contractWord (s.cells.s11.extractLsb' 0 8)
    exec .istep s = .next { s with
      cells := ⟨s.cells.s1, s.cells.s2, s.cells.s3, s.cells.s4, s.cells.s5, s.cells.s6, s.cells.s7, s.cells.s8,
        s.cells.s9, s.cells.s10, s.cells.s11, s.cells.s12, s.cells.s13, s.cells.s14, s.cells.s15,
        if s.cnt.toNat < 32 then v ^^^ F else v⟩
      r1 := s.r2 + (s.r3 ^^^ s.cells.s5)
      r2 := wordTransform1 Config.tables s.r1
      r3 := wordTransform2 Config.tables s.r2
      cnt := s.cnt + 1
      phase := if s.cnt + 1 = 33 then .ready else .initializing
      response := some ⟨.ok, 0⟩ }) ∧
  ∀ s : State, s.phase ≠ .initializing → exec .istep s = .next { s with response := some ⟨.errSequence, 0⟩ }

/-- WARMUP (R183) in `INITIALIZING`: the remaining `33 - CNT` cipher clocks, so the end state of that many ISTEPs (the
spec infers this of its loop); `READY` and `CNT` = 33 on return. The premise on `CNT` is a clause of the invariant of
`StepKeepsSessionInv`. -/
def Obligations.WarmupRunsTheRemainingClocks : Prop :=
  (∀ operand : Word, decode (0x05#8 ++ operand) = .ok .warmup) ∧
  (∀ s : State, s.phase = .initializing → s.cnt.toNat ≤ 32 →
    ∃ t, exec .warmup s = .next t ∧ execAll (List.replicate (33 - s.cnt.toNat) .istep) s = .next t ∧
      t.phase = .ready ∧ t.cnt = 33 ∧ t.response = some ⟨.ok, 0⟩ ∧ t.keyBuf = s.keyBuf ∧ t.ivBuf = s.ivBuf ∧
      t.klen = s.klen ∧ t.ivlen = s.ivlen ∧ t.pending = s.pending) ∧
  ∀ s : State, s.phase ≠ .initializing → exec .warmup s = .next { s with response := some ⟨.errSequence, 0⟩ }

/-- INIT (R184) with four words of each kind, in any phase: the end state of LOAD followed by WARMUP (the spec infers
this of its pseudocode), `READY`, `CNT` = 33, the buffers cleared; with another count the length error, as LOAD. -/
def Obligations.InitIsLoadThenWarmup : Prop :=
  (∀ operand : Word, decode (0x06#8 ++ operand) = .ok .init) ∧
  (∀ s : State, s.klen = 4 → s.ivlen = 4 →
    ∃ t, exec .init s = .next t ∧ execAll [.load, .warmup] s = .next t ∧ t.phase = .ready ∧ t.cnt = 33 ∧
      t.keyBuf = ⟨0, 0, 0, 0⟩ ∧ t.ivBuf = ⟨0, 0, 0, 0⟩ ∧ t.klen = 0 ∧ t.ivlen = 0 ∧
      t.response = some ⟨.ok, 0⟩ ∧ t.pending = s.pending) ∧
  ∀ s : State, ¬(s.klen = 4 ∧ s.ivlen = 4) → exec .init s = exec .load s ∧
    ∃ t, exec .init s = .next t ∧ t.response = some ⟨.errInvalidInputLength, 0⟩

/-- GEN (R185) in `READY` or `GENERATING`: the response is `F ⊕ s[0]` of before the shift, one cipher clock in
keystream mode, `GENERATING`; `CNT` and the buffers stay. -/
def Obligations.GenGivesOneKeystreamWord : Prop :=
  (∀ operand : Word, decode (0x07#8 ++ operand) = .ok .gen) ∧
  (∀ s : State, s.phase = .ready ∨ s.phase = .generating →
    exec .gen s = .next { s with
      cells := ⟨s.cells.s1, s.cells.s2, s.cells.s3, s.cells.s4, s.cells.s5, s.cells.s6, s.cells.s7, s.cells.s8,
        s.cells.s9, s.cells.s10, s.cells.s11, s.cells.s12, s.cells.s13, s.cells.s14, s.cells.s15,
        (s.cells.s0 <<< 8) ^^^ expandWord (s.cells.s0.extractLsb' 24 8) ^^^ s.cells.s2 ^^^
          (s.cells.s11 >>> 8) ^^^ contractWord (s.cells.s11.extractLsb' 0 8)⟩
      r1 := s.r2 + (s.r3 ^^^ s.cells.s5)
      r2 := wordTransform1 Config.tables s.r1
      r3 := wordTransform2 Config.tables s.r2
      phase := .generating
      response := some ⟨.ok, ((s.cells.s15 + s.r1) ^^^ s.r2) ^^^ s.cells.s0⟩ }) ∧
  ∀ s : State, s.phase = .uninit ∨ s.phase = .initializing →
    exec .gen s = .next { s with response := some ⟨.errSequence, 0⟩ }

/-- DISCARD (R187): every item of state takes its reset value, in any phase. -/
def Obligations.DiscardClearsTheState : Prop :=
  (∀ operand : Word, decode (0x08#8 ++ operand) = .ok .discard) ∧
  ∀ s : State, ∃ t, exec .discard s = .next t ∧ SameState t State.reset ∧ t.response = some ⟨.ok, 0⟩ ∧
    t.pending = s.pending

/-! ### Unit-evaluation commands: encoding, result and frame (R190: no item of state changes) -/

/-- MULC (R191): the zero-extended `mulByConst`; operand bits 31:16 are ignored. -/
def Obligations.MulcAnswersTheProduct : Prop :=
  (∀ operand : Word, decode (0x10#8 ++ operand) =
    .ok (.mulc (operand.extractLsb' 0 8) (operand.extractLsb' 8 8))) ∧
  ∀ (s : State) (value constant : Byte),
    exec (.mulc value constant) s =
      .next { s with response := some ⟨.ok, (mulByConst value constant).setWidth 32⟩ }

/-- POW (R192): the zero-extended `power`; operand bits 31:24 are ignored. -/
def Obligations.PowAnswersThePower : Prop :=
  (∀ operand : Word, decode (0x11#8 ++ operand) =
    .ok (.pow (operand.extractLsb' 0 8) (operand.extractLsb' 16 8).toNat (operand.extractLsb' 8 8))) ∧
  ∀ (s : State) (value : Byte) (exponent : Nat) (constant : Byte),
    exec (.pow value exponent constant) s =
      .next { s with response := some ⟨.ok, (power value exponent constant).setWidth 32⟩ }

/-- EXPAND (R193): `expandWord` of operand bits 7:0. -/
def Obligations.ExpandAnswersTheWord : Prop :=
  (∀ operand : Word, decode (0x12#8 ++ operand) = .ok (.expand (operand.extractLsb' 0 8))) ∧
  ∀ (s : State) (byte : Byte), exec (.expand byte) s = .next { s with response := some ⟨.ok, expandWord byte⟩ }

/-- CONTRACT (R194): `contractWord` of operand bits 7:0. -/
def Obligations.ContractAnswersTheWord : Prop :=
  (∀ operand : Word, decode (0x13#8 ++ operand) = .ok (.contract (operand.extractLsb' 0 8))) ∧
  ∀ (s : State) (byte : Byte), exec (.contract byte) s = .next { s with response := some ⟨.ok, contractWord byte⟩ }

/-- BOXR (R195): the zero-extended entry of `TABLE_R` at operand bits 7:0. -/
def Obligations.BoxrAnswersTheEntry : Prop :=
  (∀ operand : Word, decode (0x14#8 ++ operand) = .ok (.boxr (operand.extractLsb' 0 8))) ∧
  ∀ (s : State) (byte : Byte),
    exec (.boxr byte) s = .next { s with response := some ⟨.ok, (Config.tableR byte).setWidth 32⟩ }

/-- BOXQ (R196): the zero-extended entry of `TABLE_Q` at operand bits 7:0. -/
def Obligations.BoxqAnswersTheEntry : Prop :=
  (∀ operand : Word, decode (0x15#8 ++ operand) = .ok (.boxq (operand.extractLsb' 0 8))) ∧
  ∀ (s : State) (byte : Byte),
    exec (.boxq byte) s = .next { s with response := some ⟨.ok, (Config.tableQ byte).setWidth 32⟩ }

/-- WT1 (R197): `wordTransform1` of the operand word. -/
def Obligations.Wt1AnswersTheTransform : Prop :=
  (∀ operand : Word, decode (0x16#8 ++ operand) = .ok (.wt1 operand)) ∧
  ∀ (s : State) (word : Word),
    exec (.wt1 word) s = .next { s with response := some ⟨.ok, wordTransform1 Config.tables word⟩ }

/-- WT2 (R198): `wordTransform2` of the operand word. -/
def Obligations.Wt2AnswersTheTransform : Prop :=
  (∀ operand : Word, decode (0x17#8 ++ operand) = .ok (.wt2 operand)) ∧
  ∀ (s : State) (word : Word),
    exec (.wt2 word) s = .next { s with response := some ⟨.ok, wordTransform2 Config.tables word⟩ }

/-! ### Exceptions -/

/-- `ERR_SEQUENCE` (R223): ISTEP and WARMUP outside `INITIALIZING`, GEN in `UNINIT` and `INITIALIZING`: no item of
state changes, the result word is 0. -/
def Obligations.SequenceErrorChangesNothing : Prop :=
  ∀ s : State,
    (s.phase ≠ .initializing →
      exec .istep s = .next { s with response := some ⟨.errSequence, 0⟩ } ∧
      exec .warmup s = .next { s with response := some ⟨.errSequence, 0⟩ }) ∧
    (s.phase = .uninit ∨ s.phase = .initializing →
      exec .gen s = .next { s with response := some ⟨.errSequence, 0⟩ })

/-- `ERR_INVALID_INPUT_LENGTH` (R222): a LOAD or INIT with `KLEN ≠ 4` or `IVLEN ≠ 4`, in any phase, puts every item of
state to its reset value; the result word is 0. -/
def Obligations.LengthErrorResetsTheState : Prop :=
  ∀ s : State, ¬(s.klen = 4 ∧ s.ivlen = 4) →
    ∃ t, exec .load s = .next t ∧ exec .init s = .next t ∧ SameState t State.reset ∧
      t.response = some ⟨.errInvalidInputLength, 0⟩ ∧ t.pending = s.pending

/-- Which command answers which code (R220, R176, R221, R228, R91): every command answers; the sequence error exactly
where the table of phases says SEQ, the length error exactly for LOAD and INIT with a wrong count, the illegal-command
error for no command of the map; and the result word is 0 on every error and for every command but GEN and the unit
commands. -/
def Obligations.EachCommandAnswersTheCodeItsRulesName : Prop :=
  ∀ (i : Instr) (s : State), ∃ t r, exec i s = .next t ∧ t.response = some r ∧
    (r.resp = .errSequence ↔ seqForbidden i s.phase) ∧
    (r.resp = .errInvalidInputLength ↔ (i = .load ∨ i = .init) ∧ ¬(s.klen = 4 ∧ s.ivlen = 4)) ∧
    r.resp ≠ .errIllegalCmd ∧
    (r.resp ≠ .ok → r.rdata = 0) ∧
    (i ≠ .gen → isUnit i = false → r.rdata = 0)

/-! ### Sessions -/

/-- The clock count of the initialization (R182; the source's testable property E7 of 95_test_vectors.md): after a
successful LOAD the first 32 ISTEPs are cipher clocks in initialization mode, the 33rd is one in keystream mode and
enters `READY`, and until then no GEN gives a word. -/
def Obligations.ThirtyTwoInitializationClocksThenOne : Prop :=
  ∀ s : State, s.phase = .initializing → s.cnt = 0 →
    (∀ j : Nat, 1 ≤ j → j ≤ 32 →
      execAll (List.replicate j .istep) s = .next
        { (cipherClock Config.tables .initialization)^[j] s with
          cnt := BitVec.ofNat 6 j
          response := some ⟨.ok, 0⟩ } ∧
      ∃ t, execAll (List.replicate j .istep ++ [.gen]) s = .next t ∧ t.response = some ⟨.errSequence, 0⟩) ∧
    execAll (List.replicate 33 .istep) s = .next
      { cipherClock Config.tables .keystream ((cipherClock Config.tables .initialization)^[32] s) with
        cnt := 33
        phase := .ready
        response := some ⟨.ok, 0⟩ }

/-- Every way from the pushed words to `READY` gives the same state: INIT; LOAD, `j` ISTEPs and WARMUP; LOAD and 33
ISTEPs. The spec's own inference (70_reset_and_hazards.md section 2). -/
def Obligations.BootRoutesGiveOneState : Prop :=
  ∀ s : State, s.klen = 4 → s.ivlen = 4 →
    ∃ t, exec .init s = .next t ∧ t.phase = .ready ∧
      (∀ j : Nat, j ≤ 32 → execAll (.load :: List.replicate j .istep ++ [.warmup]) s = .next t) ∧
      execAll (.load :: List.replicate 33 .istep) s = .next t

/-- `initialize(key, iv)` (R200): from clear buffers, any number of key words, any number of IV words, then INIT: OK and
`READY` exactly when there are four of each, else the length error and the reset state; and a count above four is
counted as 5 however long the sequence is. -/
def Obligations.InitializeTakesExactlyFourWords : Prop :=
  ∀ (s : State) (key iv : List Word), s.klen = 0 → s.ivlen = 0 →
    (∃ t, execAll (key.map .wrkey ++ iv.map .wriv) s = .next t ∧
      t.klen = BitVec.ofNat 3 (min key.length 5) ∧ t.ivlen = BitVec.ofNat 3 (min iv.length 5)) ∧
    ∃ t, execAll (key.map .wrkey ++ iv.map .wriv ++ [.init]) s = .next t ∧
      if key.length = 4 ∧ iv.length = 4 then
        t.response = some ⟨.ok, 0⟩ ∧ t.phase = .ready
      else
        t.response = some ⟨.errInvalidInputLength, 0⟩ ∧ SameState t State.reset

/-- `k0` is the first word pushed with WRKEY after a clear and `v0` the first pushed with WRIV (R267): eight pushes, the
two kinds interleaved or not, and LOAD put each word where the load formula says. -/
def Obligations.PushOrderIsKeyAndIvOrder : Prop :=
  ∀ (s : State) (k0 k1 k2 k3 v0 v1 v2 v3 : Word), s.klen = 0 → s.ivlen = 0 →
    ∃ t, execAll [.wrkey k0, .wrkey k1, .wrkey k2, .wrkey k3, .wriv v0, .wriv v1, .wriv v2, .wriv v3, .load] s =
        .next t ∧
      execAll [.wriv v0, .wrkey k0, .wriv v1, .wrkey k1, .wriv v2, .wrkey k2, .wriv v3, .wrkey k3, .load] s =
        .next t ∧
      t.response = some ⟨.ok, 0⟩ ∧
      t.cells = ⟨~~~k0, ~~~k1, ~~~k2, ~~~k3, k0, k1, k2, k3, ~~~k0, ~~~k1 ^^^ v3, ~~~k2 ^^^ v2, ~~~k3, k0 ^^^ v1, k1,
        k2, k3 ^^^ v0⟩

/-- `generate(session, n)` (R201): `n` words, the k-th of them `F ⊕ s[0]` of the state after `k` words, and the session
goes on from where it was. -/
def Obligations.GenerateGivesNWords : Prop :=
  ∀ (n : Nat) (s : State), s.phase = .ready ∨ s.phase = .generating →
    ∃ ws t, generate n s = some (ws, t) ∧ ws.length = n ∧ (0 < n → t.phase = .generating) ∧ (n = 0 → t = s) ∧
      ∀ k, k < n → ∃ u, (generate k s).map Prod.snd = some u ∧
        ws[k]? = some (((u.cells.s15 + u.r1) ^^^ u.r2) ^^^ u.cells.s0)

/-- Session continuation (R202): `generate(s, a+b)` is `generate(s, a)` followed by `generate(s, b)` on the same
session. -/
def Obligations.GenerateContinuesTheSession : Prop :=
  ∀ (a b : Nat) (s : State), s.phase = .ready ∨ s.phase = .generating →
    ∃ ws t ws' t', generate a s = some (ws, t) ∧ generate b t = some (ws', t') ∧
      generate (a + b) s = some (ws ++ ws', t')

/-- Determinism of sessions (44_driver.md section 5, the spec's own inference from R181, R182 and R185): two machines
with the same eight pushed words, whatever else their states hold, give the same session and the same keystream after
INIT. -/
def Obligations.SessionDependsOnlyOnKeyAndIv : Prop :=
  ∀ s s' : State, s.klen = 4 → s.ivlen = 4 → s'.klen = 4 → s'.ivlen = 4 →
    s.keyBuf = s'.keyBuf → s.ivBuf = s'.ivBuf →
    ∃ t t', exec .init s = .next t ∧ exec .init s' = .next t' ∧ SameState t t' ∧
      ∀ n : Nat, ∃ ws u u', generate n t = some (ws, u) ∧ generate n t' = some (ws, u') ∧ SameState u u'

/-- Without a session the cells and FSM registers cannot be observed: two states that differ in them alone, in `UNINIT`,
answer every step alike, and go on doing so. The spec's own inference (10_state.md section 6). -/
def Obligations.UnloadedValuesAreUnobservable : Prop :=
  ∀ s s' : State, SameButUnloaded s s' →
    ∃ t t', step s = .next t ∧ step s' = .next t' ∧ SameButUnloaded t t' ∧
      t.response = t'.response ∧ t.status = t'.status

/-- Only GEN lets anything of a session or of the buffers out (the spec's own inference, 10_state.md section 1), and no
decision of the controller depends on them (R204): two states with the same `STATUS` answer a command with the same
code, the same result word unless it is GEN, and the same `STATUS` after it. -/
def Obligations.OnlyGenRevealsTheSession : Prop :=
  ∀ (i : Instr) (s s' : State), s.status = s'.status →
    ∃ t t' r r', exec i s = .next t ∧ exec i s' = .next t' ∧ t.status = t'.status ∧
      t.response = some r ∧ t'.response = some r' ∧ r.resp = r'.resp ∧ (i ≠ .gen → r.rdata = r'.rdata)
end

