-- ==== Sys2Proof/Laws/Operands.lean ====
section
/-! SUPPORT. What the operand fields read from an assembled command word, and the byte lanes of a word. -/

namespace Sys2Proof.Machine

/-! ### Fields of `opcode ++ operand` -/

theorem opcodeField_append (opcode : Byte) (operand : Word) : opcodeField (opcode ++ operand) = opcode := by
  refine BitVec.eq_of_getLsbD_eq fun i hi => ?_
  simp only [opcodeField, BitVec.getLsbD_extractLsb', BitVec.getLsbD_append]
  simp [hi]

theorem wordField_append (opcode : Byte) (operand : Word) : wordField (opcode ++ operand) = operand := by
  refine BitVec.eq_of_getLsbD_eq fun i hi => ?_
  simp only [wordField, BitVec.getLsbD_extractLsb', BitVec.getLsbD_append]
  simp [hi]

theorem byteField_append (opcode : Byte) (operand : Word) :
    byteField (opcode ++ operand) = operand.extractLsb' 0 8 := by
  refine BitVec.eq_of_getLsbD_eq fun i hi => ?_
  have h : 0 + i < 32 := by omega
  simp only [byteField, BitVec.getLsbD_extractLsb', BitVec.getLsbD_append, if_pos h]

theorem valueField_append (opcode : Byte) (operand : Word) :
    valueField (opcode ++ operand) = operand.extractLsb' 0 8 :=
  byteField_append opcode operand

theorem constantField_append (opcode : Byte) (operand : Word) :
    constantField (opcode ++ operand) = operand.extractLsb' 8 8 := by
  refine BitVec.eq_of_getLsbD_eq fun i hi => ?_
  have h : 8 + i < 32 := by omega
  simp only [constantField, BitVec.getLsbD_extractLsb', BitVec.getLsbD_append, if_pos h]

theorem exponentField_append (opcode : Byte) (operand : Word) :
    exponentField (opcode ++ operand) = (operand.extractLsb' 16 8).toNat := by
  refine congrArg BitVec.toNat (BitVec.eq_of_getLsbD_eq fun i hi => ?_)
  have h : 16 + i < 32 := by omega
  simp only [BitVec.getLsbD_extractLsb', BitVec.getLsbD_append, if_pos h]

/-- A command word is its opcode field followed by its word field. -/
theorem opcodeField_append_wordField (cw : CommandWord) : opcodeField cw ++ wordField cw = cw := by
  refine BitVec.eq_of_getLsbD_eq fun i hi => ?_
  simp only [opcodeField, wordField, BitVec.getLsbD_append, BitVec.getLsbD_extractLsb']
  split
  · next h => simp [h]
  · next h =>
    have h8 : i - 32 < 8 := by omega
    have h32 : 32 + (i - 32) = i := by omega
    simp [h8, h32]

/-! ### Byte lanes -/

theorem lane0_lanes (a b c d : Byte) : lane0 (lanes a b c d) = a := by
  refine BitVec.eq_of_getLsbD_eq fun i hi => ?_
  simp only [lane0, lanes, BitVec.getLsbD_extractLsb', BitVec.getLsbD_append]
  simp [hi, show ¬ 24 + i < 8 by omega, show ¬ 24 + i - 8 < 8 by omega, show ¬ 24 + i - 8 - 8 < 8 by omega,
    show 24 + i - 8 - 8 - 8 = i by omega]

theorem lane1_lanes (a b c d : Byte) : lane1 (lanes a b c d) = b := by
  refine BitVec.eq_of_getLsbD_eq fun i hi => ?_
  simp only [lane1, lanes, BitVec.getLsbD_extractLsb', BitVec.getLsbD_append]
  simp [hi, show ¬ 16 + i < 8 by omega, show ¬ 16 + i - 8 < 8 by omega, show 16 + i - 8 - 8 = i by omega]

theorem lane2_lanes (a b c d : Byte) : lane2 (lanes a b c d) = c := by
  refine BitVec.eq_of_getLsbD_eq fun i hi => ?_
  simp only [lane2, lanes, BitVec.getLsbD_extractLsb', BitVec.getLsbD_append]
  simp [hi, show ¬ 8 + i < 8 by omega, show 8 + i - 8 = i by omega]

theorem lane3_lanes (a b c d : Byte) : lane3 (lanes a b c d) = d := by
  refine BitVec.eq_of_getLsbD_eq fun i hi => ?_
  simp only [lane3, lanes, BitVec.getLsbD_extractLsb', BitVec.getLsbD_append]
  simp [hi]

/-- A word is its four lanes. -/
theorem lanes_of_lanes (w : Word) : lanes (lane0 w) (lane1 w) (lane2 w) (lane3 w) = w := by
  refine BitVec.eq_of_getLsbD_eq fun i hi => ?_
  simp only [lane0, lane1, lane2, lane3, lanes, BitVec.getLsbD_append, BitVec.getLsbD_extractLsb']
  by_cases h3 : i < 8
  · simp [h3]
  by_cases h2 : i - 8 < 8
  · simp [h3, h2, show 8 + (i - 8) = i by omega]
  by_cases h1 : i - 8 - 8 < 8
  · simp [h3, h2, h1, show 16 + (i - 8 - 8) = i by omega]
  · simp [h3, h2, h1, show i - 8 - 8 - 8 < 8 by omega, show 24 + (i - 8 - 8 - 8) = i by omega]

/-- Two words are equal when their lanes are. -/
theorem word_ext_lanes {v w : Word} (h0 : lane0 v = lane0 w) (h1 : lane1 v = lane1 w) (h2 : lane2 v = lane2 w)
    (h3 : lane3 v = lane3 w) : v = w := by
  rw [← lanes_of_lanes v, ← lanes_of_lanes w, h0, h1, h2, h3]

end Sys2Proof.Machine
end

