-- ==== Sys2Proof/Laws/State.lean ====
section
/-! SUPPORT. One lemma per field per update of the state, true by unfolding the update once. -/

namespace Sys2Proof.Machine

/-! ### `respond`: only the response port changes -/

@[simp] theorem respond_cells (code : Resp) (data : Word) (s : State) :
    (respond code data s).cells = s.cells := rfl

@[simp] theorem respond_r1 (code : Resp) (data : Word) (s : State) :
    (respond code data s).r1 = s.r1 := rfl

@[simp] theorem respond_r2 (code : Resp) (data : Word) (s : State) :
    (respond code data s).r2 = s.r2 := rfl

@[simp] theorem respond_r3 (code : Resp) (data : Word) (s : State) :
    (respond code data s).r3 = s.r3 := rfl

@[simp] theorem respond_phase (code : Resp) (data : Word) (s : State) :
    (respond code data s).phase = s.phase := rfl

@[simp] theorem respond_cnt (code : Resp) (data : Word) (s : State) :
    (respond code data s).cnt = s.cnt := rfl

@[simp] theorem respond_keyBuf (code : Resp) (data : Word) (s : State) :
    (respond code data s).keyBuf = s.keyBuf := rfl

@[simp] theorem respond_ivBuf (code : Resp) (data : Word) (s : State) :
    (respond code data s).ivBuf = s.ivBuf := rfl

@[simp] theorem respond_klen (code : Resp) (data : Word) (s : State) :
    (respond code data s).klen = s.klen := rfl

@[simp] theorem respond_ivlen (code : Resp) (data : Word) (s : State) :
    (respond code data s).ivlen = s.ivlen := rfl

@[simp] theorem respond_pending (code : Resp) (data : Word) (s : State) :
    (respond code data s).pending = s.pending := rfl

@[simp] theorem respond_response (code : Resp) (data : Word) (s : State) :
    (respond code data s).response = some ⟨code, data⟩ := rfl

/-! ### `giveCommand`: only the events at the ports change -/

@[simp] theorem giveCommand_cells (cw : CommandWord) (s : State) :
    (giveCommand cw s).cells = s.cells := rfl

@[simp] theorem giveCommand_r1 (cw : CommandWord) (s : State) :
    (giveCommand cw s).r1 = s.r1 := rfl

@[simp] theorem giveCommand_r2 (cw : CommandWord) (s : State) :
    (giveCommand cw s).r2 = s.r2 := rfl

@[simp] theorem giveCommand_r3 (cw : CommandWord) (s : State) :
    (giveCommand cw s).r3 = s.r3 := rfl

@[simp] theorem giveCommand_phase (cw : CommandWord) (s : State) :
    (giveCommand cw s).phase = s.phase := rfl

@[simp] theorem giveCommand_cnt (cw : CommandWord) (s : State) :
    (giveCommand cw s).cnt = s.cnt := rfl

@[simp] theorem giveCommand_keyBuf (cw : CommandWord) (s : State) :
    (giveCommand cw s).keyBuf = s.keyBuf := rfl

@[simp] theorem giveCommand_ivBuf (cw : CommandWord) (s : State) :
    (giveCommand cw s).ivBuf = s.ivBuf := rfl

@[simp] theorem giveCommand_klen (cw : CommandWord) (s : State) :
    (giveCommand cw s).klen = s.klen := rfl

@[simp] theorem giveCommand_ivlen (cw : CommandWord) (s : State) :
    (giveCommand cw s).ivlen = s.ivlen := rfl

@[simp] theorem giveCommand_pending (cw : CommandWord) (s : State) :
    (giveCommand cw s).pending = .command cw :: s.pending := rfl

@[simp] theorem giveCommand_response (cw : CommandWord) (s : State) :
    (giveCommand cw s).response = s.response := rfl

/-! ### `clearState`: every item of state at its reset value, the ports as they were -/

@[simp] theorem clearState_cells (s : State) :
    (clearState s).cells = Cells.zero := rfl

@[simp] theorem clearState_r1 (s : State) :
    (clearState s).r1 = 0 := rfl

@[simp] theorem clearState_r2 (s : State) :
    (clearState s).r2 = 0 := rfl

@[simp] theorem clearState_r3 (s : State) :
    (clearState s).r3 = 0 := rfl

@[simp] theorem clearState_phase (s : State) :
    (clearState s).phase = .uninit := rfl

@[simp] theorem clearState_cnt (s : State) :
    (clearState s).cnt = 0 := rfl

@[simp] theorem clearState_keyBuf (s : State) :
    (clearState s).keyBuf = WordBuf.zero := rfl

@[simp] theorem clearState_ivBuf (s : State) :
    (clearState s).ivBuf = WordBuf.zero := rfl

@[simp] theorem clearState_klen (s : State) :
    (clearState s).klen = 0 := rfl

@[simp] theorem clearState_ivlen (s : State) :
    (clearState s).ivlen = 0 := rfl

@[simp] theorem clearState_pending (s : State) :
    (clearState s).pending = s.pending := rfl

@[simp] theorem clearState_response (s : State) :
    (clearState s).response = s.response := rfl

/-! ### `assertRst`: every item of state at its reset value, no response -/

@[simp] theorem assertRst_cells (s : State) :
    (assertRst s).cells = Cells.zero := rfl

@[simp] theorem assertRst_r1 (s : State) :
    (assertRst s).r1 = 0 := rfl

@[simp] theorem assertRst_r2 (s : State) :
    (assertRst s).r2 = 0 := rfl

@[simp] theorem assertRst_r3 (s : State) :
    (assertRst s).r3 = 0 := rfl

@[simp] theorem assertRst_phase (s : State) :
    (assertRst s).phase = .uninit := rfl

@[simp] theorem assertRst_cnt (s : State) :
    (assertRst s).cnt = 0 := rfl

@[simp] theorem assertRst_keyBuf (s : State) :
    (assertRst s).keyBuf = WordBuf.zero := rfl

@[simp] theorem assertRst_ivBuf (s : State) :
    (assertRst s).ivBuf = WordBuf.zero := rfl

@[simp] theorem assertRst_klen (s : State) :
    (assertRst s).klen = 0 := rfl

@[simp] theorem assertRst_ivlen (s : State) :
    (assertRst s).ivlen = 0 := rfl

@[simp] theorem assertRst_pending (s : State) :
    (assertRst s).pending = s.pending := rfl

@[simp] theorem assertRst_response (s : State) :
    (assertRst s).response = none := rfl

/-! ### `clearBuffers`: buffers and length counters 0 -/

@[simp] theorem clearBuffers_cells (s : State) :
    (clearBuffers s).cells = s.cells := rfl

@[simp] theorem clearBuffers_r1 (s : State) :
    (clearBuffers s).r1 = s.r1 := rfl

@[simp] theorem clearBuffers_r2 (s : State) :
    (clearBuffers s).r2 = s.r2 := rfl

@[simp] theorem clearBuffers_r3 (s : State) :
    (clearBuffers s).r3 = s.r3 := rfl

@[simp] theorem clearBuffers_phase (s : State) :
    (clearBuffers s).phase = s.phase := rfl

@[simp] theorem clearBuffers_cnt (s : State) :
    (clearBuffers s).cnt = s.cnt := rfl

@[simp] theorem clearBuffers_keyBuf (s : State) :
    (clearBuffers s).keyBuf = WordBuf.zero := rfl

@[simp] theorem clearBuffers_ivBuf (s : State) :
    (clearBuffers s).ivBuf = WordBuf.zero := rfl

@[simp] theorem clearBuffers_klen (s : State) :
    (clearBuffers s).klen = 0 := rfl

@[simp] theorem clearBuffers_ivlen (s : State) :
    (clearBuffers s).ivlen = 0 := rfl

@[simp] theorem clearBuffers_pending (s : State) :
    (clearBuffers s).pending = s.pending := rfl

@[simp] theorem clearBuffers_response (s : State) :
    (clearBuffers s).response = s.response := rfl

/-! ### `loadSession`: a fresh session from the buffers -/

@[simp] theorem loadSession_cells (s : State) :
    (loadSession s).cells = loadCells s.keyBuf s.ivBuf := rfl

@[simp] theorem loadSession_r1 (s : State) :
    (loadSession s).r1 = 0 := rfl

@[simp] theorem loadSession_r2 (s : State) :
    (loadSession s).r2 = 0 := rfl

@[simp] theorem loadSession_r3 (s : State) :
    (loadSession s).r3 = 0 := rfl

@[simp] theorem loadSession_phase (s : State) :
    (loadSession s).phase = .initializing := rfl

@[simp] theorem loadSession_cnt (s : State) :
    (loadSession s).cnt = 0 := rfl

@[simp] theorem loadSession_keyBuf (s : State) :
    (loadSession s).keyBuf = WordBuf.zero := rfl

@[simp] theorem loadSession_ivBuf (s : State) :
    (loadSession s).ivBuf = WordBuf.zero := rfl

@[simp] theorem loadSession_klen (s : State) :
    (loadSession s).klen = 0 := rfl

@[simp] theorem loadSession_ivlen (s : State) :
    (loadSession s).ivlen = 0 := rfl

@[simp] theorem loadSession_pending (s : State) :
    (loadSession s).pending = s.pending := rfl

@[simp] theorem loadSession_response (s : State) :
    (loadSession s).response = s.response := rfl

/-! ### `fsmClock`: the three registers change -/

@[simp] theorem fsmClock_cells (T : Tables) (s : State) :
    (fsmClock T s).2.cells = s.cells := rfl

@[simp] theorem fsmClock_r1 (T : Tables) (s : State) :
    (fsmClock T s).2.r1 = fsmNextR1 s := rfl

@[simp] theorem fsmClock_r2 (T : Tables) (s : State) :
    (fsmClock T s).2.r2 = wordTransform1 T s.r1 := rfl

@[simp] theorem fsmClock_r3 (T : Tables) (s : State) :
    (fsmClock T s).2.r3 = wordTransform2 T s.r2 := rfl

@[simp] theorem fsmClock_phase (T : Tables) (s : State) :
    (fsmClock T s).2.phase = s.phase := rfl

@[simp] theorem fsmClock_cnt (T : Tables) (s : State) :
    (fsmClock T s).2.cnt = s.cnt := rfl

@[simp] theorem fsmClock_keyBuf (T : Tables) (s : State) :
    (fsmClock T s).2.keyBuf = s.keyBuf := rfl

@[simp] theorem fsmClock_ivBuf (T : Tables) (s : State) :
    (fsmClock T s).2.ivBuf = s.ivBuf := rfl

@[simp] theorem fsmClock_klen (T : Tables) (s : State) :
    (fsmClock T s).2.klen = s.klen := rfl

@[simp] theorem fsmClock_ivlen (T : Tables) (s : State) :
    (fsmClock T s).2.ivlen = s.ivlen := rfl

@[simp] theorem fsmClock_pending (T : Tables) (s : State) :
    (fsmClock T s).2.pending = s.pending := rfl

@[simp] theorem fsmClock_response (T : Tables) (s : State) :
    (fsmClock T s).2.response = s.response := rfl

/-! ### `lfsrClock`: the cells change -/

@[simp] theorem lfsrClock_cells (F : Word) (mode : LfsrMode) (s : State) :
    (lfsrClock F mode s).cells = clockCells F mode s.cells := rfl

@[simp] theorem lfsrClock_r1 (F : Word) (mode : LfsrMode) (s : State) :
    (lfsrClock F mode s).r1 = s.r1 := rfl

@[simp] theorem lfsrClock_r2 (F : Word) (mode : LfsrMode) (s : State) :
    (lfsrClock F mode s).r2 = s.r2 := rfl

@[simp] theorem lfsrClock_r3 (F : Word) (mode : LfsrMode) (s : State) :
    (lfsrClock F mode s).r3 = s.r3 := rfl

@[simp] theorem lfsrClock_phase (F : Word) (mode : LfsrMode) (s : State) :
    (lfsrClock F mode s).phase = s.phase := rfl

@[simp] theorem lfsrClock_cnt (F : Word) (mode : LfsrMode) (s : State) :
    (lfsrClock F mode s).cnt = s.cnt := rfl

@[simp] theorem lfsrClock_keyBuf (F : Word) (mode : LfsrMode) (s : State) :
    (lfsrClock F mode s).keyBuf = s.keyBuf := rfl

@[simp] theorem lfsrClock_ivBuf (F : Word) (mode : LfsrMode) (s : State) :
    (lfsrClock F mode s).ivBuf = s.ivBuf := rfl

@[simp] theorem lfsrClock_klen (F : Word) (mode : LfsrMode) (s : State) :
    (lfsrClock F mode s).klen = s.klen := rfl

@[simp] theorem lfsrClock_ivlen (F : Word) (mode : LfsrMode) (s : State) :
    (lfsrClock F mode s).ivlen = s.ivlen := rfl

@[simp] theorem lfsrClock_pending (F : Word) (mode : LfsrMode) (s : State) :
    (lfsrClock F mode s).pending = s.pending := rfl

@[simp] theorem lfsrClock_response (F : Word) (mode : LfsrMode) (s : State) :
    (lfsrClock F mode s).response = s.response := rfl

/-! ### `cipherClock`: registers and cells, both from the old values -/

@[simp] theorem cipherClock_cells (T : Tables) (mode : LfsrMode) (s : State) :
    (cipherClock T mode s).cells = clockCells (fsmOutput s) mode s.cells := rfl

@[simp] theorem cipherClock_r1 (T : Tables) (mode : LfsrMode) (s : State) :
    (cipherClock T mode s).r1 = fsmNextR1 s := rfl

@[simp] theorem cipherClock_r2 (T : Tables) (mode : LfsrMode) (s : State) :
    (cipherClock T mode s).r2 = wordTransform1 T s.r1 := rfl

@[simp] theorem cipherClock_r3 (T : Tables) (mode : LfsrMode) (s : State) :
    (cipherClock T mode s).r3 = wordTransform2 T s.r2 := rfl

@[simp] theorem cipherClock_phase (T : Tables) (mode : LfsrMode) (s : State) :
    (cipherClock T mode s).phase = s.phase := rfl

@[simp] theorem cipherClock_cnt (T : Tables) (mode : LfsrMode) (s : State) :
    (cipherClock T mode s).cnt = s.cnt := rfl

@[simp] theorem cipherClock_keyBuf (T : Tables) (mode : LfsrMode) (s : State) :
    (cipherClock T mode s).keyBuf = s.keyBuf := rfl

@[simp] theorem cipherClock_ivBuf (T : Tables) (mode : LfsrMode) (s : State) :
    (cipherClock T mode s).ivBuf = s.ivBuf := rfl

@[simp] theorem cipherClock_klen (T : Tables) (mode : LfsrMode) (s : State) :
    (cipherClock T mode s).klen = s.klen := rfl

@[simp] theorem cipherClock_ivlen (T : Tables) (mode : LfsrMode) (s : State) :
    (cipherClock T mode s).ivlen = s.ivlen := rfl

@[simp] theorem cipherClock_pending (T : Tables) (mode : LfsrMode) (s : State) :
    (cipherClock T mode s).pending = s.pending := rfl

@[simp] theorem cipherClock_response (T : Tables) (mode : LfsrMode) (s : State) :
    (cipherClock T mode s).response = s.response := rfl

/-! ### `initClock`: one cipher clock, counted -/

@[simp] theorem initClock_cells (T : Tables) (s : State) :
    (initClock T s).cells = clockCells (fsmOutput s) (initMode s.cnt) s.cells := rfl

@[simp] theorem initClock_r1 (T : Tables) (s : State) :
    (initClock T s).r1 = fsmNextR1 s := rfl

@[simp] theorem initClock_r2 (T : Tables) (s : State) :
    (initClock T s).r2 = wordTransform1 T s.r1 := rfl

@[simp] theorem initClock_r3 (T : Tables) (s : State) :
    (initClock T s).r3 = wordTransform2 T s.r2 := rfl

@[simp] theorem initClock_phase (T : Tables) (s : State) :
    (initClock T s).phase = if s.cnt + 1 = initClocks then .ready else s.phase := rfl

@[simp] theorem initClock_cnt (T : Tables) (s : State) :
    (initClock T s).cnt = s.cnt + 1 := rfl

@[simp] theorem initClock_keyBuf (T : Tables) (s : State) :
    (initClock T s).keyBuf = s.keyBuf := rfl

@[simp] theorem initClock_ivBuf (T : Tables) (s : State) :
    (initClock T s).ivBuf = s.ivBuf := rfl

@[simp] theorem initClock_klen (T : Tables) (s : State) :
    (initClock T s).klen = s.klen := rfl

@[simp] theorem initClock_ivlen (T : Tables) (s : State) :
    (initClock T s).ivlen = s.ivlen := rfl

@[simp] theorem initClock_pending (T : Tables) (s : State) :
    (initClock T s).pending = s.pending := rfl

@[simp] theorem initClock_response (T : Tables) (s : State) :
    (initClock T s).response = s.response := rfl

/-! ### `genClock`: one keystream-mode cipher clock -/

@[simp] theorem genClock_cells (T : Tables) (s : State) :
    (genClock T s).cells = clockCells (fsmOutput s) .keystream s.cells := rfl

@[simp] theorem genClock_r1 (T : Tables) (s : State) :
    (genClock T s).r1 = fsmNextR1 s := rfl

@[simp] theorem genClock_r2 (T : Tables) (s : State) :
    (genClock T s).r2 = wordTransform1 T s.r1 := rfl

@[simp] theorem genClock_r3 (T : Tables) (s : State) :
    (genClock T s).r3 = wordTransform2 T s.r2 := rfl

@[simp] theorem genClock_phase (T : Tables) (s : State) :
    (genClock T s).phase = .generating := rfl

@[simp] theorem genClock_cnt (T : Tables) (s : State) :
    (genClock T s).cnt = s.cnt := rfl

@[simp] theorem genClock_keyBuf (T : Tables) (s : State) :
    (genClock T s).keyBuf = s.keyBuf := rfl

@[simp] theorem genClock_ivBuf (T : Tables) (s : State) :
    (genClock T s).ivBuf = s.ivBuf := rfl

@[simp] theorem genClock_klen (T : Tables) (s : State) :
    (genClock T s).klen = s.klen := rfl

@[simp] theorem genClock_ivlen (T : Tables) (s : State) :
    (genClock T s).ivlen = s.ivlen := rfl

@[simp] theorem genClock_pending (T : Tables) (s : State) :
    (genClock T s).pending = s.pending := rfl

@[simp] theorem genClock_response (T : Tables) (s : State) :
    (genClock T s).response = s.response := rfl

/-- The output of `FSM.clock` is that of the registers before the update. -/
@[simp] theorem fsmClock_output (T : Tables) (s : State) : (fsmClock T s).1 = fsmOutput s := rfl

end Sys2Proof.Machine
end

