-- ==== Sys2Proof/Laws/Ops.lean ====
section
/-! SUPPORT. For each shared operation, and each command with more than one case, one lemma that says once all it can
do. -/

namespace Sys2Proof.Machine

/-! ### Exceptions -/

theorem raise_invalidInputLength (s : State) :
    raise .invalidInputLength s = respond .errInvalidInputLength 0 (clearState s) := rfl

theorem raise_sequence (s : State) : raise .sequence s = respond .errSequence 0 s := rfl

theorem raise_illegalCmd (s : State) : raise .illegalCmd s = respond .errIllegalCmd 0 s := rfl

/-- An exception always answers result word 0, and leaves the ports' events alone. -/
theorem raise_port (e : Exc) (s : State) :
    (raise e s).pending = s.pending ∧ ∃ code, (raise e s).response = some ⟨code, 0⟩ := by
  cases e
  · exact ⟨rfl, _, rfl⟩
  · exact ⟨rfl, _, rfl⟩
  · exact ⟨rfl, _, rfl⟩

/-! ### The commands with a condition: all they can do -/

theorem execLoad_cases (s : State) :
    (lengthsValid s ∧ execLoad s = .next (respond .ok 0 (loadSession s))) ∨
      (¬lengthsValid s ∧ execLoad s = .next (raise .invalidInputLength s)) := by
  by_cases h : lengthsValid s
  · exact .inl ⟨h, if_pos h⟩
  · exact .inr ⟨h, if_neg h⟩

theorem execIstep_cases (s : State) :
    (s.phase = .initializing ∧ execIstep s = .next (respond .ok 0 (initClock Config.tables s))) ∨
      (s.phase ≠ .initializing ∧ execIstep s = .next (raise .sequence s)) := by
  by_cases h : s.phase = .initializing
  · exact .inl ⟨h, if_pos h⟩
  · exact .inr ⟨h, if_neg h⟩

theorem execWarmup_cases (s : State) :
    (s.phase = .initializing ∧ execWarmup s = .next (respond .ok 0 (finishInit Config.tables s))) ∨
      (s.phase ≠ .initializing ∧ execWarmup s = .next (raise .sequence s)) := by
  by_cases h : s.phase = .initializing
  · exact .inl ⟨h, if_pos h⟩
  · exact .inr ⟨h, if_neg h⟩

theorem execInit_cases (s : State) :
    (lengthsValid s ∧ execInit s = .next (respond .ok 0 (finishInit Config.tables (loadSession s)))) ∨
      (¬lengthsValid s ∧ execInit s = .next (raise .invalidInputLength s)) := by
  by_cases h : lengthsValid s
  · exact .inl ⟨h, if_pos h⟩
  · exact .inr ⟨h, if_neg h⟩

theorem execGen_cases (s : State) :
    ((s.phase = .ready ∨ s.phase = .generating) ∧
        execGen s = .next (respond .ok (keystreamWord s) (genClock Config.tables s))) ∨
      (¬(s.phase = .ready ∨ s.phase = .generating) ∧ execGen s = .next (raise .sequence s)) := by
  by_cases h : s.phase = .ready ∨ s.phase = .generating
  · exact .inl ⟨h, if_pos h⟩
  · exact .inr ⟨h, if_neg h⟩

/-! ### The loop of WARMUP -/

theorem initLoop_zero (T : Tables) (s : State) : initLoop T 0 s = s := rfl

theorem initLoop_succ (T : Tables) (fuel : Nat) (s : State) :
    initLoop T (fuel + 1) s = if s.cnt < initClocks then initLoop T fuel (initClock T s) else s := rfl

/-- A property that every initialization clock keeps, the loop keeps. -/
theorem initLoop_induction (T : Tables) (P : State → Prop)
    (clock : ∀ s, s.cnt < initClocks → P s → P (initClock T s)) :
    ∀ (fuel : Nat) (s : State), P s → P (initLoop T fuel s)
  | 0, _, h => h
  | fuel + 1, s, h => by
    rw [initLoop_succ]
    split
    · next hlt => exact initLoop_induction T P clock fuel _ (clock s hlt h)
    · exact h

theorem finishInit_eq (T : Tables) (s : State) : finishInit T s = initLoop T 33 s := by
  unfold finishInit
  rfl

/-- The loop of WARMUP leaves the buffers, their counters and the ports alone. -/
theorem finishInit_frame (T : Tables) (s : State) :
    (finishInit T s).keyBuf = s.keyBuf ∧ (finishInit T s).ivBuf = s.ivBuf ∧ (finishInit T s).klen = s.klen ∧
      (finishInit T s).ivlen = s.ivlen ∧ (finishInit T s).pending = s.pending ∧
      (finishInit T s).response = s.response := by
  rw [finishInit_eq]
  exact initLoop_induction T
    (fun t => t.keyBuf = s.keyBuf ∧ t.ivBuf = s.ivBuf ∧ t.klen = s.klen ∧ t.ivlen = s.ivlen ∧
      t.pending = s.pending ∧ t.response = s.response)
    (fun _ _ h => h) _ s ⟨rfl, rfl, rfl, rfl, rfl, rfl⟩

/-- The loop of WARMUP, run from `INITIALIZING` with a count the invariant allows, ends in `READY` at 33. -/
theorem initLoop_ready (T : Tables) : ∀ (fuel : Nat) (s : State), s.phase = .initializing → s.cnt.toNat ≤ 32 →
    33 ≤ fuel + s.cnt.toNat → (initLoop T fuel s).phase = .ready ∧ (initLoop T fuel s).cnt = 33
  | 0, s, _, hle, hfuel => by omega
  | fuel + 1, s, hp, hle, hfuel => by
    have hlt : s.cnt < initClocks := show s.cnt.toNat < 33 by omega
    have hsucc : (s.cnt + 1).toNat = s.cnt.toNat + 1 := by
      rw [BitVec.toNat_add]
      simp
      omega
    rw [initLoop_succ, if_pos hlt]
    by_cases h32 : s.cnt.toNat = 32
    · have h33 : s.cnt + 1 = 33 := BitVec.eq_of_toNat_eq (by rw [hsucc, h32]; rfl)
      have hstop : ∀ n, initLoop T n (initClock T s) = initClock T s
        | 0 => rfl
        | n + 1 => by
          rw [initLoop_succ, if_neg]
          rw [initClock_cnt, h33]
          decide
      rw [hstop]
      exact ⟨by rw [initClock_phase]; exact if_pos h33, h33⟩
    · have hne : s.cnt + 1 ≠ initClocks := fun h => h32 (by
        have := congrArg BitVec.toNat h
        rw [hsucc] at this
        simp at this
        omega)
      refine initLoop_ready T fuel _ ?_ ?_ ?_
      · rw [initClock_phase, if_neg hne]
        exact hp
      · rw [initClock_cnt, hsucc]
        omega
      · rw [initClock_cnt, hsucc]
        omega

theorem finishInit_ready (T : Tables) (s : State) (hp : s.phase = .initializing) (hle : s.cnt.toNat ≤ 32) :
    (finishInit T s).phase = .ready ∧ (finishInit T s).cnt = 33 := by
  rw [finishInit_eq]
  exact initLoop_ready T 33 s hp hle (by omega)

/-! ### Pushing a word -/

/-- The counter counts up to 5 and stays there. -/
theorem pushLen_toNat (len : BitVec 3) (h : len.toNat ≤ 5) : (pushLen len).toNat = min (len.toNat + 1) 5 := by
  unfold pushLen
  split
  · next hlt =>
    have hlt' : len.toNat < 5 := hlt
    rw [BitVec.toNat_add]
    simp
    omega
  · next hge =>
    have hge' : ¬len.toNat < 5 := hge
    omega

/-- A push writes the word at the counter's index, if there is one, and no other word. -/
theorem bufAt_pushWord (b : WordBuf) (len : BitVec 3) (w : Word) (i : Fin 4) :
    bufAt (pushWord b len w) i = if len.toNat = i.val then w else bufAt b i := by
  have hlen : len.toNat < 8 := len.isLt
  have hi : i.val < 4 := i.isLt
  unfold pushWord
  split
  · next hlt =>
    have hlt' : len.toNat < 4 := hlt
    generalize len.toNat = n at *
    obtain ⟨i, _⟩ := i
    interval_cases n <;> interval_cases i <;> rfl
  · next hge =>
    have hge' : ¬len.toNat < 4 := hge
    rw [if_neg (by omega)]

/-! ### Taking an event -/

theorem takeEvent_nil {s : State} (h : s.pending = []) : takeEvent s = none := by
  unfold takeEvent
  rw [h]

theorem takeEvent_cons {s : State} {e : PortEvent} {rest : List PortEvent} (h : s.pending = e :: rest) :
    takeEvent s = some (e, { s with pending := rest }) := by
  unfold takeEvent
  rw [h]

/-- All a step can do, by what stands at the ports. -/
theorem step_cases (s : State) :
    (s.pending = [] ∧ step s = .next s) ∨
      (∃ rest, s.pending = .rst :: rest ∧ step s = .next (assertRst { s with pending := rest })) ∨
      (∃ cw rest i, s.pending = .command cw :: rest ∧ decode cw = .ok i ∧
        step s = exec i { s with pending := rest }) ∨
      (∃ cw rest e, s.pending = .command cw :: rest ∧ decode cw = .error e ∧
        step s = .next (raise .illegalCmd { s with pending := rest })) := by
  cases hp : s.pending with
  | nil => exact .inl ⟨rfl, by simp only [step, takeEvent_nil hp]⟩
  | cons e rest =>
    cases e with
    | rst => exact .inr (.inl ⟨rest, rfl, by simp only [step, takeEvent_cons hp]⟩)
    | command cw =>
      cases hd : decode cw with
      | ok i => exact .inr (.inr (.inl ⟨cw, rest, i, rfl, hd, by simp only [step, takeEvent_cons hp, hd]⟩))
      | error e => exact .inr (.inr (.inr ⟨cw, rest, e, rfl, hd, by simp only [step, takeEvent_cons hp, hd]⟩))

end Sys2Proof.Machine
end

