-- ==== Sys2Proof/Laws/PerInstr.lean ====
section
/-! SUPPORT. The families of statements made per instruction: each has a `Statement` and one lemma per constructor. -/

namespace Sys2Proof.Laws

open Sys2Proof Sys2Proof.Machine

/-- Masking an assembled command word leaves its opcode over an operand of zeros. -/
theorem commandWord_and_rowMask (opcode : Byte) (operand : Word) :
    commandWord opcode operand &&& rowMask = (opcode ++ 0#32 : CommandWord) := by
  have hm : rowMask = (0xFF#8 ++ 0#32 : CommandWord) := by decide
  have h8 : opcode &&& 0xFF#8 = opcode := by
    have : (0xFF#8) = BitVec.allOnes 8 := by decide
    rw [this, BitVec.and_allOnes]
  rw [hm]
  refine (BitVec.and_append (x₁ := opcode) (x₂ := 0xFF#8) (y₁ := operand) (y₂ := 0#32)).trans ?_
  rw [h8, BitVec.and_zero]

/-- The masked encoding of an instruction is its opcode over an operand of zeros. -/
theorem encode_and_rowMask (i : Instr) : encode i &&& rowMask = (opcodeOf i ++ 0#32 : CommandWord) :=
  commandWord_and_rowMask (opcodeOf i) (operandOf i)

/-- The encoding of an instruction selects its row of the opcode map: `cw & mask = match` (spec/30_encoding.md R84). -/
def EncodeSelectsRow.Statement (i : Instr) : Prop := encode i &&& rowMask = rowMatch i

theorem EncodeSelectsRow.nop : EncodeSelectsRow.Statement .nop :=
  (encode_and_rowMask _).trans (by simp only [opcodeOf, rowMatch]; decide)

theorem EncodeSelectsRow.wrkey (word : Word) : EncodeSelectsRow.Statement (.wrkey word) :=
  (encode_and_rowMask _).trans (by simp only [opcodeOf, rowMatch]; decide)

theorem EncodeSelectsRow.wriv (word : Word) : EncodeSelectsRow.Statement (.wriv word) :=
  (encode_and_rowMask _).trans (by simp only [opcodeOf, rowMatch]; decide)

theorem EncodeSelectsRow.load : EncodeSelectsRow.Statement .load :=
  (encode_and_rowMask _).trans (by simp only [opcodeOf, rowMatch]; decide)

theorem EncodeSelectsRow.istep : EncodeSelectsRow.Statement .istep :=
  (encode_and_rowMask _).trans (by simp only [opcodeOf, rowMatch]; decide)

theorem EncodeSelectsRow.warmup : EncodeSelectsRow.Statement .warmup :=
  (encode_and_rowMask _).trans (by simp only [opcodeOf, rowMatch]; decide)

theorem EncodeSelectsRow.init : EncodeSelectsRow.Statement .init :=
  (encode_and_rowMask _).trans (by simp only [opcodeOf, rowMatch]; decide)

theorem EncodeSelectsRow.gen : EncodeSelectsRow.Statement .gen :=
  (encode_and_rowMask _).trans (by simp only [opcodeOf, rowMatch]; decide)

theorem EncodeSelectsRow.discard : EncodeSelectsRow.Statement .discard :=
  (encode_and_rowMask _).trans (by simp only [opcodeOf, rowMatch]; decide)

theorem EncodeSelectsRow.mulc (value constant : Byte) : EncodeSelectsRow.Statement (.mulc value constant) :=
  (encode_and_rowMask _).trans (by simp only [opcodeOf, rowMatch]; decide)

theorem EncodeSelectsRow.pow (value : Byte) (exponent : Nat) (constant : Byte) :
    EncodeSelectsRow.Statement (.pow value exponent constant) :=
  (encode_and_rowMask _).trans (by simp only [opcodeOf, rowMatch]; decide)

theorem EncodeSelectsRow.expand (byte : Byte) : EncodeSelectsRow.Statement (.expand byte) :=
  (encode_and_rowMask _).trans (by simp only [opcodeOf, rowMatch]; decide)

theorem EncodeSelectsRow.contract (byte : Byte) : EncodeSelectsRow.Statement (.contract byte) :=
  (encode_and_rowMask _).trans (by simp only [opcodeOf, rowMatch]; decide)

theorem EncodeSelectsRow.boxr (byte : Byte) : EncodeSelectsRow.Statement (.boxr byte) :=
  (encode_and_rowMask _).trans (by simp only [opcodeOf, rowMatch]; decide)

theorem EncodeSelectsRow.boxq (byte : Byte) : EncodeSelectsRow.Statement (.boxq byte) :=
  (encode_and_rowMask _).trans (by simp only [opcodeOf, rowMatch]; decide)

theorem EncodeSelectsRow.wt1 (word : Word) : EncodeSelectsRow.Statement (.wt1 word) :=
  (encode_and_rowMask _).trans (by simp only [opcodeOf, rowMatch]; decide)

theorem EncodeSelectsRow.wt2 (word : Word) : EncodeSelectsRow.Statement (.wt2 word) :=
  (encode_and_rowMask _).trans (by simp only [opcodeOf, rowMatch]; decide)

end Sys2Proof.Laws
end

