-- ==== Sys2Proof/Tests/Slice0.lean ====
section
/-! SUPPORT. Tests. Expected values are the worked examples of the rules and the vectors V1 to V55, P1 to P6 of
spec/95_test_vectors.md, or counted by hand from a rule; then one witness for every obligation that has hypotheses. -/

namespace Sys2Proof.Tests

open Sys2Proof Sys2Proof.Machine

/-! ### Helpers -/

/-- The state a step or a command answers; the reset state where it answers none. -/
def after : Host.Outcome State Fault Refusal → State
  | .next t => t
  | .fault _ => State.reset
  | .refused _ => State.reset

/-- The next state, if the outcome is one. -/
def nextOf : Host.Outcome State Fault Refusal → Option State
  | .next t => some t
  | .fault _ => none
  | .refused _ => none

theorem eq_next_of_nextOf {o : Host.Outcome State Fault Refusal} {t : State} (h : nextOf o = some t) :
    o = .next t := by
  cases o with
  | next u => exact congrArg _ (Option.some.inj h)
  | fault _ => cases h
  | refused _ => cases h

/-- The reset state with another phase, count and lengths. -/
def st (phase : Phase) (cnt : BitVec 6) (klen ivlen : BitVec 3) : State :=
  { State.reset with phase := phase, cnt := cnt, klen := klen, ivlen := ivlen }

/-- Key K1 and IV IV1 of V35, pushed. -/
def pushed : State :=
  { st .uninit 0 4 4 with
    keyBuf := ⟨0x2BD6459F, 0x82C5B300, 0x952C4910, 0x4881FF48⟩
    ivBuf := ⟨0xEA024714, 0xAD5C4D84, 0xDF1F9B25, 0x1C0BF45F⟩ }

/-- The tables `IDENT` of spec/41_boxes.md. -/
def ident : Tables := ⟨fun b => b, fun b => b⟩

/-- The entries 0x01 to 0x04 of the candidate tables (spec/20_memory.md R57, R58), enough for one vector. -/
def candFew : Tables :=
  ⟨fun b => match b.toNat with
    | 1 => 0x7C
    | 2 => 0x77
    | 3 => 0x7B
    | _ => 0xF2,
  fun b => match b.toNat with
    | 1 => 0x24
    | 2 => 0x73
    | 3 => 0x67
    | _ => 0xD7⟩

/-- The cells of V30. -/
def cellsV30 : Cells :=
  ⟨0xA1B2C3D4, 0x11111111, 0x0F0E0D0C, 3, 4, 5, 6, 7, 8, 9, 10, 0x89ABCDEF, 12, 13, 14, 0xFFFFFFFF⟩

/-- The registers of V26. -/
def fsmV26 : State :=
  { State.reset with
    cells := { Cells.zero with s5 := 0x00000001, s15 := 0xFFFFFFFF }
    r1 := 0x00000002, r2 := 0x80000000, r3 := 0x80000001 }

/-! ### WellFormed: the one check, at its bound -/

theorem test_wellFormed_pow_255 : (Instr.pow 0x01 255 0xA9).wellFormed = true := by decide
theorem test_illFormed_pow_256 : (Instr.pow 0x01 256 0xA9).wellFormed = false := by decide

/-! ### Decode: words written out from the opcode map and the formats (R82 to R84, V55, P6) -/

theorem test_decode_nop : decode 0x00FFFFFFFF#40 = .ok .nop := by decide
theorem test_decode_wrkey : decode 0x012BD6459F#40 = .ok (.wrkey 0x2BD6459F) := by decide
theorem test_decode_wriv : decode 0x02EA024714#40 = .ok (.wriv 0xEA024714) := by decide
theorem test_decode_load : decode 0x0300000000#40 = .ok .load := by decide
theorem test_decode_istep : decode 0x0400000000#40 = .ok .istep := by decide
theorem test_decode_warmup : decode 0x0500000000#40 = .ok .warmup := by decide
theorem test_decode_init : decode 0x0600000000#40 = .ok .init := by decide
theorem test_decode_gen : decode 0x0700000000#40 = .ok .gen := by decide
theorem test_decode_discard : decode 0x0800000000#40 = .ok .discard := by decide
theorem test_decode_mulc : decode 0x10FFFF1B80#40 = .ok (.mulc 0x80 0x1B) := by decide
theorem test_decode_pow : decode 0x11AB17A901#40 = .ok (.pow 0x01 23 0xA9) := by decide
theorem test_decode_expand : decode 0x12FFFFFF01#40 = .ok (.expand 0x01) := by decide
theorem test_decode_contract : decode 0x1312345601#40 = .ok (.contract 0x01) := by decide
theorem test_decode_boxr : decode 0x14ABCDEF53#40 = .ok (.boxr 0x53) := by decide
theorem test_decode_boxq : decode 0x1500000053#40 = .ok (.boxq 0x53) := by decide
theorem test_decode_wt1 : decode 0x1601020304#40 = .ok (.wt1 0x01020304) := by decide
theorem test_decode_wt2 : decode 0x1780000000#40 = .ok (.wt2 0x80000000) := by decide
/-- Reserved opcodes of V52 and the ends of both ranges of R88. -/
theorem test_decode_reserved :
    [0x0900000000#40, 0x0F12345678#40, 0x1800000000#40, 0x7F00000000#40, 0xFFFFFFFFFF#40].map decode =
      [.error (.reservedOpcode 0x09), .error (.reservedOpcode 0x0F), .error (.reservedOpcode 0x18),
        .error (.reservedOpcode 0x7F), .error (.reservedOpcode 0xFF)] := by decide
theorem test_encode_pow : encode (.pow 0x01 23 0xA9) = 0x110017A901#40 := by decide
theorem test_encode_mulc : encode (.mulc 0x80 0x1B) = 0x1000001B80#40 := by decide
theorem test_decodeTableWord : decodeTableWord 40 0x110017A901 = some (.pow 0x01 23 0xA9) := by decide

/-! ### Status and codes (R29, R31, R90) -/

/-- The worked example of R31. -/
theorem test_status :
    (st .uninit 0 4 4).status = 0x0090 ∧ (st .ready 33 0 0).status = 0x2102 ∧
      (st .generating 33 0 0).status = 0x2103 := by decide
theorem test_resp_codes :
    [Resp.ok, .errInvalidInputLength, .errSequence, .errIllegalCmd].map respCode = [0, 1, 2, 3] := by decide

/-! ### Galois-field primitives (V3, V4, V7, V10, V11) -/

theorem test_mulByConst_constants :
    mulByConst 0xFF 0x1B = 0xE5 ∧ mulByConst 0xC3 0x69 = 0xEF ∧ mulByConst 0xFF 0xA9 = 0x57 ∧
      mulByConst 0x7F 0xFF = 0xFE ∧ mulByConst 0xFF 0x00 = 0xFE := by decide
theorem test_power : power 0x53 0 0xA9 = 0x53 ∧ power 0x57 4 0x1B = 0x07 ∧ power 0x01 16 0xA9 = 0x18 := by
  decide +kernel
theorem test_expandWord : expandWord 0xA1 = 0xA5CD651F := by decide +kernel
theorem test_contractWord : contractWord 0xEF = 0x9F03FAD3 := by decide +kernel

/-! ### Boxes and word transforms (V21, V22) -/

theorem test_wordTransform1 :
    wordTransform1 ident 0x80402010 = 0x6B3090C0 ∧ wordTransform1 candFew 0x01020304 = 0x061B0F8F := by decide
theorem test_wordTransform2 :
    wordTransform2 ident 0x80402010 = 0x193090C0 ∧ wordTransform2 candFew 0x01020304 = 0x8B724EF7 := by decide

/-! ### FSM and LFSR (V26, V30, V31) -/

theorem test_fsmClock :
    (fsmClock ident fsmV26).1 = 0x80000001 ∧ (fsmClock ident fsmV26).2.r1 = 0x00000000 ∧
      (fsmClock ident fsmV26).2.r2 = 0x02020204 ∧ (fsmClock ident fsmV26).2.r3 = 0x69808080 := by decide
theorem test_lfsrClock_keystream :
    clockCells 0x12345678 .keystream cellsV30 =
      ⟨0x11111111, 0x0F0E0D0C, 3, 4, 5, 6, 7, 8, 9, 10, 0x89ABCDEF, 12, 13, 14, 0xFFFFFFFF, 0x878AED0D⟩ := by
  decide +kernel
theorem test_lfsrClock_initialization :
    (clockCells 0x12345678 .initialization cellsV30).s15 = 0x95BEBB75 := by decide +kernel

/-! ### Controller commands (R178, R181, R182, R185; V35, V50, V51) -/

theorem test_wrkey_fifth_word_is_dropped :
    (after (exec (.wrkey 9) pushed)).keyBuf = pushed.keyBuf ∧ (after (exec (.wrkey 9) pushed)).klen = 5 := by decide
theorem test_wriv_fourth_word :
    (after (exec (.wriv 9) (st .ready 33 0 3))).ivBuf = ⟨0, 0, 0, 9⟩ ∧
      (after (exec (.wriv 9) (st .ready 33 0 3))).ivlen = 4 := by decide
theorem test_load_K1 :
    (after (exec .load pushed)).cells =
      ⟨0xD429BA60, 0x7D3A4CFF, 0x6AD3B6EF, 0xB77E00B7, 0x2BD6459F, 0x82C5B300, 0x952C4910, 0x4881FF48, 0xD429BA60,
        0x6131B8A0, 0xB5CC2DCA, 0xB77E00B7, 0x868A081B, 0x82C5B300, 0x952C4910, 0xA283B85C⟩ ∧
      (after (exec .load pushed)).status = 0x0001 := by decide
theorem test_load_three_key_words :
    nextOf (exec .load (st .generating 33 3 4)) =
      some { State.reset with response := some ⟨.errInvalidInputLength, 0⟩ } := by
  decide +kernel
theorem test_init_five_key_words :
    nextOf (exec .init (st .ready 33 5 4)) =
      some { State.reset with response := some ⟨.errInvalidInputLength, 0⟩ } := by
  decide +kernel
/-- The first ISTEP after the LOAD of R181's example. -/
theorem test_istep_first :
    (initClock ident (loadSession pushed)).cells.s15 = 0x97DF2884 ∧
      (initClock ident (loadSession pushed)).r1 = 0x82C5B300 ∧
      (initClock ident (loadSession pushed)).status = 0x0101 := by decide +kernel
/-- The clock at `CNT` = 31 still feeds `F` back, the one at 32 does not and enters `READY` (R182): all cells 0, so
the new cell 15 is `F` or 0. -/
theorem test_initClock_modes :
    (initClock ident { st .initializing 31 0 0 with r2 := 7 }).cells.s15 = 7 ∧
      (initClock ident { st .initializing 31 0 0 with r2 := 7 }).phase = .initializing ∧
      (initClock ident { st .initializing 32 0 0 with r2 := 7 }).cells.s15 = 0 ∧
      (initClock ident { st .initializing 32 0 0 with r2 := 7 }).phase = .ready := by decide +kernel
/-- The word uses the `s[0]` of before the shift: `F` = 3 XOR 0, `s[0]` = 5. -/
theorem test_keystreamWord :
    keystreamWord { st .ready 33 0 0 with cells := { Cells.zero with s0 := 5, s1 := 9, s15 := 1 }, r1 := 2 } = 6 := by
  decide
theorem test_gen_in_initializing :
    nextOf (exec .gen (st .initializing 32 0 0)) =
      some { st .initializing 32 0 0 with response := some ⟨.errSequence, 0⟩ } := by
  decide +kernel
theorem test_warmup_in_ready :
    nextOf (exec .warmup (st .ready 33 0 0)) = some { st .ready 33 0 0 with response := some ⟨.errSequence, 0⟩ } := by
  decide +kernel
theorem test_discard :
    nextOf (exec .discard (st .generating 33 2 1)) = some { State.reset with response := some ⟨.ok, 0⟩ } := by
  decide +kernel

/-! ### Unit commands: result on the port (R191 to R198) -/

theorem test_mulc :
    nextOf (exec (.mulc 0x57 0x1B) (st .ready 33 0 0)) =
      some { st .ready 33 0 0 with response := some ⟨.ok, 0x000000AE⟩ } := by
  decide +kernel
theorem test_pow :
    nextOf (exec (.pow 0x57 2 0x1B) State.reset) =
      some { State.reset with response := some ⟨.ok, 0x00000047⟩ } := by
  decide +kernel
theorem test_expand : rdataOf (after (exec (.expand 0x01) State.reset)) = 0xE19FCF13 := by decide +kernel
theorem test_contract : rdataOf (after (exec (.contract 0x01) State.reset)) = 0x180F40CD := by decide +kernel
theorem test_boxr : rdataOf (after (exec (.boxr 0x53) State.reset)) = (Config.tableR 0x53).setWidth 32 := rfl
theorem test_boxq : rdataOf (after (exec (.boxq 0x53) State.reset)) = (Config.tableQ 0x53).setWidth 32 := rfl
theorem test_wt1 : rdataOf (after (exec (.wt1 7) State.reset)) = wordTransform1 Config.tables 7 := rfl
theorem test_wt2 : rdataOf (after (exec (.wt2 7) State.reset)) = wordTransform2 Config.tables 7 := rfl

/-! ### Steps -/

/-- The given command is the very next one run, and what the host gave before it stays. -/
theorem test_step_withFetchWord :
    nextOf (step (({ State.reset with pending := [.rst] } : State).withFetchWord 40 0x012BD6459F)) =
      some { State.reset with
        keyBuf := ⟨0x2BD6459F, 0, 0, 0⟩, klen := 1, pending := [.rst], response := some ⟨.ok, 0⟩ } := by
  decide +kernel
theorem test_step_reserved :
    nextOf (step ((st .generating 33 1 2).withFetchWord 40 0x0900000000)) =
      some { st .generating 33 1 2 with response := some ⟨.errIllegalCmd, 0⟩ } := by
  decide +kernel

/-! ### Witnesses: for every obligation with hypotheses, states and operands that meet them together -/

/-- The largest exponent, and the smallest. -/
theorem witness_DecodeUndoesEncode :
    (Instr.pow 0x01 255 0xA9).WellFormed ∧ (Instr.pow 0x01 0 0xA9).WellFormed ∧ (Instr.wt2 0xFFFFFFFF).WellFormed := by
  decide
theorem witness_EncodeRecoversUsedBits : decode 0x11ABFFA901#40 = .ok (.pow 0x01 255 0xA9) := by decide
theorem witness_IgnoredBitsChangeNothing :
    decode 0x10FFFF1B80#40 = .ok (.mulc 0x80 0x1B) ∧
      0x1000001B80#40 &&& usedBits (.mulc 0x80 0x1B) = 0x10FFFF1B80#40 &&& usedBits (.mulc 0x80 0x1B) := by decide
/-- Both cases, at the ends of their ranges of opcodes. -/
theorem witness_CommandWordSelectsItsRowOrIsReserved :
    ([0x0000000000#40, 0x0800000000#40, 0x1000000000#40, 0x17FFFFFFFF#40].map fun cw => (decode cw).toBool) =
        [true, true, true, true] ∧
      ([0x0900000000#40, 0x0FFFFFFFFF#40, 0x1800000000#40, 0xFFFFFFFFFF#40].map fun cw => (decode cw).toBool) =
        [false, false, false, false] := by decide
theorem witness_StepRunsTheDecodedCommand :
    (giveCommand 0x0800000000#40 State.reset).pending = .command 0x0800000000#40 :: [] ∧
      decode 0x0800000000#40 = .ok .discard := by decide
theorem witness_ReservedOpcodeAnswersIllegal :
    (giveCommand 0x0900000000#40 State.reset).pending = .command 0x0900000000#40 :: [] ∧
      (∀ cw ∈ [0x0900000000#40, 0x0FFFFFFFFF#40], 0x09 ≤ cw.toNat / 2 ^ 32 ∧ cw.toNat / 2 ^ 32 ≤ 0x0F) ∧
      ∀ cw ∈ [0x1800000000#40, 0xFFFFFFFFFF#40], 0x18 ≤ cw.toNat / 2 ^ 32 :=
  ⟨rfl, by simp, by simp⟩
theorem witness_IdleChangesNothing : (st .generating 33 0 0).pending = [] := rfl
theorem witness_RstRestoresResetState :
    ({ st .generating 33 0 0 with pending := [.rst, .rst] } : State).pending = .rst :: [.rst] := rfl
theorem witness_EveryStepCompletes :
    (giveCommand 0xFF00000000#40 (st .ready 33 0 0)).pending = .command 0xFF00000000#40 :: [] := rfl

/-- The invariant in each phase, at the ends of the range of `CNT`. -/
theorem inv_uninit : SessionInv (st .uninit 0 5 4) := by constructor <;> decide
theorem inv_initializing : SessionInv (st .initializing 0 0 0) := by constructor <;> decide
theorem inv_initializing_32 : SessionInv (st .initializing 32 5 0) := by constructor <;> decide
theorem inv_ready : SessionInv (st .ready 33 0 5) := by constructor <;> decide
theorem inv_generating : SessionInv (st .generating 33 4 4) := by constructor <;> decide
theorem inv_give (cw : CommandWord) (s : State) (h : SessionInv s) : SessionInv (giveCommand cw s) :=
  ⟨h.1, h.2, h.3, h.4, h.5, h.6, h.7, h.8, h.9⟩

/-- A WRKEY with `KLEN` at its top, and the idle step. -/
theorem witness_StepKeepsSessionInv :
    (SessionInv (giveCommand 0x0100000007#40 (st .initializing 32 5 0)) ∧
      step (giveCommand 0x0100000007#40 (st .initializing 32 5 0)) =
        .next { st .initializing 32 5 0 with response := some ⟨.ok, 0⟩ }) ∧
    SessionInv (st .ready 33 0 5) ∧ step (st .ready 33 0 5) = .next (st .ready 33 0 5) :=
  ⟨⟨inv_give _ _ inv_initializing_32, eq_next_of_nextOf (by decide +kernel)⟩, inv_ready,
    eq_next_of_nextOf (by decide +kernel)⟩
/-- One command after reset, and a session in its first phase. -/
theorem witness_ReachableStatusInRange :
    Reachable { State.reset with
      keyBuf := ⟨7, 0, 0, 0⟩, klen := 1, pending := [], response := some ⟨.ok, 0⟩ } :=
  .step (.give [.command 0x0100000007#40] .reset) (eq_next_of_nextOf (by decide +kernel))
/-- A state with the invariant for each phase of the four clauses, and one with `rst` at the port. -/
theorem witness_PhaseMovesAsTheTableSays :
    SessionInv (st .uninit 0 5 4) ∧ SessionInv (st .initializing 0 0 0) ∧ SessionInv (st .initializing 32 5 0) ∧
      SessionInv (st .ready 33 0 5) ∧ SessionInv (st .generating 33 4 4) ∧
      ({ State.reset with pending := [.rst] } : State).pending = .rst :: [] :=
  ⟨inv_uninit, inv_initializing, inv_initializing_32, inv_ready, inv_generating, rfl⟩

/-- The high bit clear at 127, set at 128. -/
theorem witness_MulByConstDoublesAndReduces :
    (0x7F#8).toNat < 128 ∧ (mulByConst 0x7F 0x1B).toNat = 2 * 127 ∧ 128 ≤ (0x80#8).toNat ∧
      (mulByConst 0x80 0x1B).toNat = (2 * 128 - 256) ^^^ 0x1B := by decide
theorem witness_PowerComposesWithPeriods :
    255 + 0 ≤ 255 ∧ 128 + 127 ≤ 255 ∧ (0x01#8) ≠ 0 ∧ power 0x01 51 0x1B = 0x01 ∧ power 0x01 50 0x1B ≠ 0x01 ∧
      (0x69#8).getLsbD 0 = true := by decide +kernel
theorem witness_LaneMixingIsALinearBijection :
    ((0x1B#8 : Byte) = 0x1B ∨ (0x1B#8 : Byte) = 0x69) ∧ ((0x69#8 : Byte) = 0x1B ∨ (0x69#8 : Byte) = 0x69) := by decide

/-- Four words of each kind; and a count just below and just above four. -/
theorem witness_LoadFillsTheCells :
    (pushed.klen = 4 ∧ pushed.ivlen = 4) ∧ ¬((st .ready 33 3 4).klen = 4 ∧ (st .ready 33 3 4).ivlen = 4) ∧
      ¬((st .ready 33 4 5).klen = 4 ∧ (st .ready 33 4 5).ivlen = 4) := by decide
theorem witness_IstepRunsOneCipherClock :
    (st .initializing 0 0 0).phase = .initializing ∧ (st .initializing 31 0 0).phase = .initializing ∧
      (st .initializing 32 0 0).phase = .initializing ∧ (st .ready 33 0 0).phase ≠ .initializing := by decide
theorem witness_WarmupRunsTheRemainingClocks :
    ((st .initializing 0 0 0).phase = .initializing ∧ (st .initializing 0 0 0).cnt.toNat ≤ 32) ∧
      ((st .initializing 32 0 0).phase = .initializing ∧ (st .initializing 32 0 0).cnt.toNat ≤ 32) ∧
      (st .ready 33 0 0).phase ≠ .initializing := by decide
theorem witness_InitIsLoadThenWarmup :
    (pushed.klen = 4 ∧ pushed.ivlen = 4) ∧ ¬((st .ready 33 5 4).klen = 4 ∧ (st .ready 33 5 4).ivlen = 4) := by decide
theorem witness_GenGivesOneKeystreamWord :
    ((st .ready 33 0 0).phase = .ready ∨ (st .ready 33 0 0).phase = .generating) ∧
      ((st .generating 33 0 0).phase = .ready ∨ (st .generating 33 0 0).phase = .generating) ∧
      ((st .uninit 0 0 0).phase = .uninit ∨ (st .uninit 0 0 0).phase = .initializing) ∧
      ((st .initializing 32 0 0).phase = .uninit ∨ (st .initializing 32 0 0).phase = .initializing) := by decide
theorem witness_SequenceErrorChangesNothing :
    (st .ready 33 0 0).phase ≠ .initializing ∧ (st .uninit 0 0 0).phase ≠ .initializing ∧
      ((st .initializing 32 0 0).phase = .uninit ∨ (st .initializing 32 0 0).phase = .initializing) := by decide
theorem witness_LengthErrorResetsTheState :
    ¬((st .generating 33 3 4).klen = 4 ∧ (st .generating 33 3 4).ivlen = 4) ∧
      ¬((st .generating 33 4 5).klen = 4 ∧ (st .generating 33 4 5).ivlen = 4) := by decide
/-- Each code's condition met by one command and state, and the last clause's. -/
theorem witness_EachCommandAnswersTheCodeItsRulesName :
    seqForbidden .gen (st .initializing 32 0 0).phase ∧ ¬seqForbidden .istep (st .initializing 32 0 0).phase ∧
      ¬((st .ready 33 5 4).klen = 4 ∧ (st .ready 33 5 4).ivlen = 4) ∧ Instr.load ≠ .gen ∧ isUnit .load = false := by
  refine ⟨.inr ⟨rfl, .inr rfl⟩, ?_, by decide, by decide, rfl⟩
  rintro (⟨-, h⟩ | ⟨h, -⟩)
  · exact h rfl
  · exact absurd h (by decide)
theorem witness_ThirtyTwoInitializationClocksThenOne :
    (loadSession pushed).phase = .initializing ∧ (loadSession pushed).cnt = 0 ∧ (1 ≤ 1 ∧ 1 ≤ 32) ∧ 1 ≤ 32 ∧
      32 ≤ 32 := by decide
theorem witness_BootRoutesGiveOneState : pushed.klen = 4 ∧ pushed.ivlen = 4 ∧ 0 ≤ 32 ∧ 32 ≤ 32 := by decide
/-- Clear buffers in a running session; four words, and one too few and one too many. -/
theorem witness_InitializeTakesExactlyFourWords :
    (st .generating 33 0 0).klen = 0 ∧ (st .generating 33 0 0).ivlen = 0 ∧ ([1, 2, 3, 4] : List Word).length = 4 ∧
      ([1, 2, 3] : List Word).length ≠ 4 ∧ ([1, 2, 3, 4, 5] : List Word).length ≠ 4 := by decide
theorem witness_PushOrderIsKeyAndIvOrder : State.reset.klen = 0 ∧ State.reset.ivlen = 0 := by decide
theorem witness_GenerateGivesNWords :
    (st .ready 33 0 0).phase = .ready ∨ (st .ready 33 0 0).phase = .generating := by decide
theorem witness_GenerateContinuesTheSession :
    (st .generating 33 0 0).phase = .ready ∨ (st .generating 33 0 0).phase = .generating := by decide
/-- Two machines that share the pushed words and nothing else. -/
theorem witness_SessionDependsOnlyOnKeyAndIv :
    ∃ s s' : State, s.klen = 4 ∧ s.ivlen = 4 ∧ s'.klen = 4 ∧ s'.ivlen = 4 ∧ s.keyBuf = s'.keyBuf ∧ s.ivBuf = s'.ivBuf ∧
      s.cells ≠ s'.cells ∧ s.phase ≠ s'.phase :=
  ⟨pushed, { pushed with cells := cellsV30, phase := .generating }, by decide⟩
theorem witness_UnloadedValuesAreUnobservable : SameButUnloaded pushed { pushed with cells := cellsV30, r1 := 1 } :=
  ⟨rfl, rfl, rfl, rfl, rfl, rfl, rfl, rfl, fun h => absurd rfl h⟩
theorem witness_OnlyGenRevealsTheSession :
    (st .ready 33 0 0).status = ({ st .ready 33 0 0 with cells := cellsV30, r1 := 1 } : State).status ∧
      Instr.istep ≠ .gen := by decide

end Sys2Proof.Tests
end

section
/-! What a step and a command can do, said once: an equation of `step` per event at the ports, and the relation
`ExecResult` with one case per kind of result of `exec`. -/

namespace Sys2Proof.Machine

/-! ### `step`, by what stands at the ports -/

theorem step_idle {s : State} (hp : s.pending = []) : step s = .next s := by
  simp only [step, takeEvent_nil hp]

theorem step_rst {s : State} {rest : List PortEvent} (hp : s.pending = .rst :: rest) :
    step s = .next (assertRst { s with pending := rest }) := by
  simp only [step, takeEvent_cons hp]

theorem step_command {s : State} {cw : CommandWord} {rest : List PortEvent} {i : Instr}
    (hp : s.pending = .command cw :: rest) (hd : decode cw = .ok i) :
    step s = exec i { s with pending := rest } := by
  simp only [step, takeEvent_cons hp, hd]

theorem step_reserved {s : State} {cw : CommandWord} {rest : List PortEvent} {e : DecodeError}
    (hp : s.pending = .command cw :: rest) (hd : decode cw = .error e) :
    step s = .next (raise .illegalCmd { s with pending := rest }) := by
  simp only [step, takeEvent_cons hp, hd]

/-! ### `exec`, by the kind of its result -/

/-- The result word of a command that reads and writes no state: NOP (R177) and the eight unit commands (R190). -/
def statelessWord : Instr → Option Word
  | .nop => some 0
  | .mulc value constant => some (zext32 (mulByConst value constant))
  | .pow value exponent constant => some (zext32 (power value exponent constant))
  | .expand byte => some (expandWord byte)
  | .contract byte => some (contractWord byte)
  | .boxr byte => some (zext32 (boxR Config.tables byte))
  | .boxq byte => some (zext32 (boxQ Config.tables byte))
  | .wt1 word => some (wordTransform1 Config.tables word)
  | .wt2 word => some (wordTransform2 Config.tables word)
  | _ => none

/-- All that a command can leave behind: the table of phases (R176) and the rules of the nine controller commands
(R177 to R187) as a relation between command, state and next state. -/
inductive ExecResult : Instr → State → State → Prop where
  | stateless {i s word} : statelessWord i = some word → ExecResult i s (respond .ok word s)
  | wrkey {s} word : ExecResult (.wrkey word) s
      (respond .ok 0 { s with keyBuf := pushWord s.keyBuf s.klen word, klen := pushLen s.klen })
  | wriv {s} word : ExecResult (.wriv word) s
      (respond .ok 0 { s with ivBuf := pushWord s.ivBuf s.ivlen word, ivlen := pushLen s.ivlen })
  | load {s} : lengthsValid s → ExecResult .load s (respond .ok 0 (loadSession s))
  | init {s} : lengthsValid s → ExecResult .init s (respond .ok 0 (finishInit Config.tables (loadSession s)))
  | lengthError {i s} : i = .load ∨ i = .init → ¬lengthsValid s → ExecResult i s (raise .invalidInputLength s)
  | istep {s} : s.phase = .initializing → ExecResult .istep s (respond .ok 0 (initClock Config.tables s))
  | warmup {s} : s.phase = .initializing → ExecResult .warmup s (respond .ok 0 (finishInit Config.tables s))
  | gen {s} : s.phase = .ready ∨ s.phase = .generating →
      ExecResult .gen s (respond .ok (keystreamWord s) (genClock Config.tables s))
  | sequenceError {i s} : seqForbidden i s.phase → ExecResult i s (raise .sequence s)
  | discard {s} : ExecResult .discard s (respond .ok 0 (clearState s))

theorem exec_stateless {i : Instr} {word : Word} (hw : statelessWord i = some word) (s : State) :
    exec i s = .next (respond .ok word s) := by
  cases i <;> cases hw <;> rfl

/-- The SEQ entries of GEN (R176) are the phases in which its own test fails (R185). -/
theorem seqForbidden_gen_iff (p : Phase) : seqForbidden .gen p ↔ ¬(p = .ready ∨ p = .generating) := by
  cases p <;> simp [seqForbidden]

/-- Every command answers a next state, and it is one that `ExecResult` lists. -/
theorem exec_result (i : Instr) (s : State) : ∃ t, exec i s = .next t ∧ ExecResult i s t := by
  cases hw : statelessWord i with
  | some word => exact ⟨_, exec_stateless hw s, .stateless hw⟩
  | none =>
    cases i with
    | wrkey word => exact ⟨_, rfl, .wrkey word⟩
    | wriv word => exact ⟨_, rfl, .wriv word⟩
    | load =>
      obtain ⟨hv, hs⟩ | ⟨hv, hs⟩ := execLoad_cases s
      · exact ⟨_, hs, .load hv⟩
      · exact ⟨_, hs, .lengthError (.inl rfl) hv⟩
    | istep =>
      obtain ⟨hp, hs⟩ | ⟨hp, hs⟩ := execIstep_cases s
      · exact ⟨_, hs, .istep hp⟩
      · exact ⟨_, hs, .sequenceError (.inl ⟨.inl rfl, hp⟩)⟩
    | warmup =>
      obtain ⟨hp, hs⟩ | ⟨hp, hs⟩ := execWarmup_cases s
      · exact ⟨_, hs, .warmup hp⟩
      · exact ⟨_, hs, .sequenceError (.inl ⟨.inr rfl, hp⟩)⟩
    | init =>
      obtain ⟨hv, hs⟩ | ⟨hv, hs⟩ := execInit_cases s
      · exact ⟨_, hs, .init hv⟩
      · exact ⟨_, hs, .lengthError (.inr rfl) hv⟩
    | gen =>
      obtain ⟨hp, hs⟩ | ⟨hp, hs⟩ := execGen_cases s
      · exact ⟨_, hs, .gen hp⟩
      · exact ⟨_, hs, .sequenceError ((seqForbidden_gen_iff _).2 hp)⟩
    | discard => exact ⟨_, rfl, .discard⟩
    | nop | mulc | pow | expand | contract | boxr | boxq | wt1 | wt2 => cases hw

/-- A state that `ExecResult` lists is the one the command answers. -/
theorem ExecResult.exec_eq {i : Instr} {s t : State} (hr : ExecResult i s t) : exec i s = .next t := by
  cases hr with
  | stateless hw => exact exec_stateless hw s
  | wrkey | wriv | discard => rfl
  | load hv | init hv => exact if_pos hv
  | lengthError hi hv =>
    obtain rfl | rfl := hi
    · exact if_neg hv
    · exact if_neg hv
  | istep hp | warmup hp | gen hp => exact if_pos hp
  | sequenceError hf =>
    obtain ⟨rfl | rfl, hp⟩ | ⟨rfl, hp⟩ := id hf
    · exact if_neg hp
    · exact if_neg hp
    · exact if_neg ((seqForbidden_gen_iff _).1 hf)

theorem exec_eq_next_iff {i : Instr} {s t : State} : exec i s = .next t ↔ ExecResult i s t := by
  refine ⟨fun he => ?_, ExecResult.exec_eq⟩
  obtain ⟨u, hu, hr⟩ := exec_result i s
  obtain rfl : u = t := by simpa [hu] using he
  exact hr

end Sys2Proof.Machine
end

section
/-! The invariant `SessionInv` in three parts (one per buffer, one per phase), and each state operation on it. -/

namespace Sys2Proof.Machine

/-! ### The parts of the invariant -/

/-- A buffer and its length counter: the counter is at most 5 and the words not pushed read 0 (R25 to R27). -/
def BufferInv (b : WordBuf) (len : BitVec 3) : Prop :=
  len.toNat ≤ 5 ∧ ∀ i : Fin 4, len.toNat ≤ i.val → bufAt b i = 0

/-- What `SessionInv` says of a state whose `PHASE` is the one given (R29, R30, R36). -/
def PhaseInv (s : State) : Phase → Prop
  | .uninit => s.cnt = 0 ∧ s.cells = Cells.zero ∧ s.r1 = 0 ∧ s.r2 = 0 ∧ s.r3 = 0
  | .initializing => s.cnt.toNat ≤ 32
  | .ready => s.cnt = 33
  | .generating => s.cnt = 33

theorem sessionInv_iff (s : State) :
    SessionInv s ↔ BufferInv s.keyBuf s.klen ∧ BufferInv s.ivBuf s.ivlen ∧ PhaseInv s s.phase := by
  constructor
  · rintro ⟨hkl, hil, hk, hv, huc, hus, hic, hrc, hgc⟩
    refine ⟨⟨hkl, hk⟩, ⟨hil, hv⟩, ?_⟩
    cases hp : s.phase with
    | uninit => exact ⟨huc hp, hus hp⟩
    | initializing => exact hic hp
    | ready => exact hrc hp
    | generating => exact hgc hp
  · rintro ⟨⟨hkl, hk⟩, ⟨hil, hv⟩, hph⟩
    refine ⟨hkl, hil, hk, hv, ?_, ?_, ?_, ?_, ?_⟩ <;> intro hp <;> rw [hp] at hph
    · exact hph.1
    · exact hph.2
    all_goals exact hph

/-! ### Buffers -/

theorem bufferInv_zero : BufferInv WordBuf.zero 0 := ⟨by decide, by decide⟩

/-- A push keeps the buffer's invariant: the words above the new count were not pushed before and are not now. -/
theorem BufferInv.push {b : WordBuf} {len : BitVec 3} (hb : BufferInv b len) (word : Word) :
    BufferInv (pushWord b len word) (pushLen len) := by
  obtain ⟨hlen, hzero⟩ := hb
  have hnext := pushLen_toNat len hlen
  refine ⟨by omega, fun i hi => ?_⟩
  have hi4 : i.val < 4 := i.isLt
  rw [bufAt_pushWord, if_neg (by omega)]
  exact hzero i (by omega)

/-! ### The state operations -/

/-- The invariant speaks of the items of state alone: any change at the ports keeps it. -/
theorem SessionInv.ports {s : State} (h : SessionInv s) (pending : List PortEvent) (response : Option Response) :
    SessionInv { s with pending := pending, response := response } := by
  obtain ⟨hkl, hil, hk, hv, huc, hus, hic, hrc, hgc⟩ := h
  exact ⟨hkl, hil, hk, hv, huc, hus, hic, hrc, hgc⟩

theorem SessionInv.respond {s : State} (h : SessionInv s) (code : Resp) (data : Word) :
    SessionInv (respond code data s) :=
  h.ports s.pending (some ⟨code, data⟩)

theorem sessionInv_reset : SessionInv State.reset :=
  (sessionInv_iff _).2 ⟨bufferInv_zero, bufferInv_zero, rfl, rfl, rfl, rfl, rfl⟩

theorem sessionInv_clearState (s : State) : SessionInv (clearState s) :=
  sessionInv_reset.ports s.pending s.response

theorem sessionInv_assertRst (s : State) : SessionInv (assertRst s) :=
  sessionInv_reset.ports s.pending none

theorem SessionInv.pushKey {s : State} (h : SessionInv s) (word : Word) :
    SessionInv { s with keyBuf := pushWord s.keyBuf s.klen word, klen := pushLen s.klen } := by
  rw [sessionInv_iff] at h ⊢
  obtain ⟨hk, hv, hph⟩ := h
  exact ⟨hk.push word, hv, hph⟩

theorem SessionInv.pushIv {s : State} (h : SessionInv s) (word : Word) :
    SessionInv { s with ivBuf := pushWord s.ivBuf s.ivlen word, ivlen := pushLen s.ivlen } := by
  rw [sessionInv_iff] at h ⊢
  obtain ⟨hk, hv, hph⟩ := h
  exact ⟨hk, hv.push word, hph⟩

theorem sessionInv_loadSession (s : State) : SessionInv (loadSession s) :=
  (sessionInv_iff _).2 ⟨bufferInv_zero, bufferInv_zero, Nat.zero_le 32⟩

/-- The clock taken at `CNT` = 32 is the 33rd and ends the initialization; an earlier one does not (R182). -/
theorem initClock_phase_of_initializing (T : Tables) {s : State} (hp : s.phase = .initializing) :
    (initClock T s).phase = if s.cnt = 32 then .ready else .initializing := by
  have hlast : s.cnt + 1 = initClocks ↔ s.cnt = 32 := by constructor <;> intro h <;> bv_omega
  simp only [initClock_phase, hlast, hp]

theorem SessionInv.initClock {s : State} (h : SessionInv s) (hp : s.phase = .initializing) (T : Tables) :
    SessionInv (initClock T s) := by
  have hle := h.initializing_cnt hp
  rw [sessionInv_iff] at h ⊢
  obtain ⟨hk, hv, -⟩ := h
  refine ⟨hk, hv, ?_⟩
  rw [initClock_phase_of_initializing T hp]
  split
  · next h32 =>
    show s.cnt + 1 = 33
    rw [h32]
    rfl
  · next h32 =>
    show (s.cnt + 1).toNat ≤ 32
    bv_omega

theorem SessionInv.finishInit {s : State} (h : SessionInv s) (hp : s.phase = .initializing) (T : Tables) :
    SessionInv (finishInit T s) := by
  obtain ⟨hready, hcnt⟩ := finishInit_ready T s hp (h.initializing_cnt hp)
  obtain ⟨hkey, hiv, hklen, hivlen, -, -⟩ := finishInit_frame T s
  rw [sessionInv_iff] at h ⊢
  obtain ⟨hk, hv, -⟩ := h
  rw [hkey, hiv, hklen, hivlen, hready]
  exact ⟨hk, hv, hcnt⟩

theorem SessionInv.genClock {s : State} (h : SessionInv s) (hp : s.phase = .ready ∨ s.phase = .generating)
    (T : Tables) : SessionInv (genClock T s) := by
  have hcnt : s.cnt = 33 := hp.elim h.ready_cnt h.generating_cnt
  rw [sessionInv_iff] at h ⊢
  obtain ⟨hk, hv, -⟩ := h
  exact ⟨hk, hv, hcnt⟩

/-! ### Commands, steps and reachable states -/

theorem SessionInv.execResult {i : Instr} {s t : State} (h : SessionInv s) (hr : ExecResult i s t) :
    SessionInv t := by
  cases hr with
  | stateless => exact h.respond _ _
  | wrkey word => exact (h.pushKey word).respond _ _
  | wriv word => exact (h.pushIv word).respond _ _
  | load => exact (sessionInv_loadSession s).respond _ _
  | init => exact ((sessionInv_loadSession s).finishInit rfl _).respond _ _
  | lengthError => exact (sessionInv_clearState s).respond _ _
  | istep hp => exact (h.initClock hp _).respond _ _
  | warmup hp => exact (h.finishInit hp _).respond _ _
  | gen hp => exact (h.genClock hp _).respond _ _
  | sequenceError => exact h.respond _ _
  | discard => exact (sessionInv_clearState s).respond _ _

theorem SessionInv.step {s t : State} (h : SessionInv s) (hs : step s = .next t) : SessionInv t := by
  obtain ⟨-, he⟩ | ⟨rest, -, he⟩ | ⟨cw, rest, i, -, -, he⟩ | ⟨cw, rest, e, -, -, he⟩ := step_cases s <;>
    rw [he] at hs
  · obtain rfl : s = t := by simpa using hs
    exact h
  · obtain rfl : assertRst _ = t := by simpa using hs
    exact sessionInv_assertRst _
  · exact (h.ports rest s.response).execResult (exec_eq_next_iff.1 hs)
  · obtain rfl : raise .illegalCmd _ = t := by simpa using hs
    exact (h.ports rest s.response).respond _ _

theorem Reachable.sessionInv {s : State} (hr : Reachable s) : SessionInv s := by
  induction hr with
  | reset => exact sessionInv_reset
  | step _ hs ih => exact ih.step hs
  | @give s events _ ih => exact ih.ports (s.pending ++ events) s.response

/-- Settles O12: the invariant is kept at rst, idle and reserved opcodes, and by each result a command can have. -/
theorem stepKeepsSessionInv : Obligations.StepKeepsSessionInv :=
  fun _ _ h hs => h.step hs

/-- Settles O13: the part of `UNINIT` and the empty buffers. -/
theorem resetHasSessionInv : Obligations.ResetHasSessionInv := sessionInv_reset

end Sys2Proof.Machine
end

section
/-! The fields of `STATUS` (R31) and their ranges in the states a host can bring about; the reset state. -/

namespace Sys2Proof.Machine

variable (s : State)

theorem status_phase : s.status.extractLsb' 0 2 = phaseCode s.phase := by
  refine BitVec.eq_of_getLsbD_eq fun i hi => ?_
  simp only [State.status, BitVec.getLsbD_extractLsb', BitVec.getLsbD_append]
  simp [hi]

theorem status_klen : s.status.extractLsb' 2 3 = s.klen := by
  refine BitVec.eq_of_getLsbD_eq fun i hi => ?_
  simp only [State.status, BitVec.getLsbD_extractLsb', BitVec.getLsbD_append]
  simp [hi, show ¬ 2 + i < 2 by omega]

theorem status_ivlen : s.status.extractLsb' 5 3 = s.ivlen := by
  refine BitVec.eq_of_getLsbD_eq fun i hi => ?_
  simp only [State.status, BitVec.getLsbD_extractLsb', BitVec.getLsbD_append]
  simp [hi, show ¬ 5 + i < 2 by omega, show ¬ 5 + i - 2 < 3 by omega, show 5 + i - 2 - 3 = i by omega]

theorem status_cnt : s.status.extractLsb' 8 6 = s.cnt := by
  refine BitVec.eq_of_getLsbD_eq fun i hi => ?_
  simp only [State.status, BitVec.getLsbD_extractLsb', BitVec.getLsbD_append]
  simp [hi, show ¬ 8 + i < 2 by omega, show ¬ 8 + i - 2 < 3 by omega, show ¬ 8 + i - 2 - 3 < 3 by omega,
    show 8 + i - 2 - 3 - 3 = i by omega]

theorem status_zero : s.status.extractLsb' 14 2 = 0 := by
  refine BitVec.eq_of_getLsbD_eq fun i hi => ?_
  simp only [State.status, BitVec.getLsbD_extractLsb', BitVec.getLsbD_append]
  simp [hi, show ¬ 14 + i < 2 by omega, show ¬ 14 + i - 2 < 3 by omega, show ¬ 14 + i - 2 - 3 < 3 by omega,
    show ¬ 14 + i - 2 - 3 - 3 < 6 by omega]

end Sys2Proof.Machine
end

section
namespace Sys2Proof.Machine

/-- Settles O15: each field by its lemma, the numbers of `PHASE` one by one. -/
theorem statusLayout : Obligations.StatusLayout := by
  intro s
  refine ⟨?_, status_klen s, status_ivlen s, status_cnt s, status_zero s⟩
  rw [status_phase]
  cases s.phase with
  | uninit | initializing | ready | generating => rfl

/-- Settles O14: the layout of `STATUS` read in the light of the invariant of every reachable state. -/
theorem reachableStatusInRange : Obligations.ReachableStatusInRange := by
  intro s hr
  obtain ⟨⟨hkl, -⟩, ⟨hil, -⟩, hph⟩ := (sessionInv_iff s).1 hr.sessionInv
  rw [status_phase, status_klen, status_ivlen, status_cnt]
  cases hp : s.phase <;> rw [hp] at hph
  case uninit =>
    obtain ⟨hcnt, -⟩ := hph
    exact ⟨hkl, hil, by simp [hcnt], status_zero s, fun _ => hcnt, by simp [hcnt],
      fun h2 => absurd h2 (by decide)⟩
  case initializing =>
    have hcnt : s.cnt.toNat ≤ 32 := hph
    exact ⟨hkl, hil, by omega, status_zero s, fun h0 => absurd h0 (by decide), fun _ => hcnt,
      fun h2 => absurd h2 (by decide)⟩
  case ready | generating =>
    have hcnt : s.cnt = 33 := hph
    exact ⟨hkl, hil, by simp [hcnt], status_zero s, fun h0 => absurd h0 (by decide),
      fun h1 => absurd h1 (by decide), fun _ => hcnt⟩

/-- Settles O10: every cell and buffer word by its index, every other item by its definition. -/
theorem resetStateIsAllZero : Obligations.ResetStateIsAllZero :=
  ⟨by decide, rfl, rfl, rfl, rfl, rfl, rfl, by decide, by decide, rfl, rfl, by decide⟩

end Sys2Proof.Machine
end

section
/-! How `PHASE` moves (R29, R176). -/

namespace Sys2Proof.Machine

/-- The commands that move `PHASE` or `CNT` are none of the stateless ones. -/
theorem controller_ne_of_statelessWord {i : Instr} {word : Word} (hw : statelessWord i = some word) :
    i ≠ .load ∧ i ≠ .istep ∧ i ≠ .warmup ∧ i ≠ .init ∧ i ≠ .gen ∧ i ≠ .discard := by
  refine ⟨?_, ?_, ?_, ?_, ?_, ?_⟩ <;> rintro rfl <;> cases hw

/-- The entered-by and left-by columns of R29 for a command `i` that takes `s` to `t`. -/
def PhaseTable (i : Instr) (s t : State) : Prop :=
  (t.phase = .uninit ↔
    i = .discard ∨ ((i = .load ∨ i = .init) ∧ ¬(s.klen = 4 ∧ s.ivlen = 4)) ∨
      (s.phase = .uninit ∧ i ≠ .load ∧ i ≠ .init)) ∧
  (t.phase = .initializing ↔
    (i = .load ∧ s.klen = 4 ∧ s.ivlen = 4 ∧ t.cnt = 0) ∨
      (s.phase = .initializing ∧ i ≠ .load ∧ i ≠ .init ∧ i ≠ .discard ∧ i ≠ .warmup ∧
        ¬(i = .istep ∧ s.cnt = 32))) ∧
  (t.phase = .ready ↔
    (s.phase = .initializing ∧ (i = .warmup ∨ (i = .istep ∧ s.cnt = 32))) ∨
      (i = .init ∧ s.klen = 4 ∧ s.ivlen = 4) ∨
      (s.phase = .ready ∧ i ≠ .load ∧ i ≠ .init ∧ i ≠ .discard ∧ i ≠ .gen)) ∧
  (t.phase = .generating ↔
    (i = .gen ∧ s.phase = .ready) ∨
      (s.phase = .generating ∧ i ≠ .load ∧ i ≠ .init ∧ i ≠ .discard))

theorem ExecResult.phaseTable {i : Instr} {s t : State} (h : SessionInv s) (hr : ExecResult i s t) :
    PhaseTable i s t := by
  unfold PhaseTable
  cases hr with
  | stateless hw =>
    obtain ⟨hload, histep, hwarmup, hinit, hgen, hdiscard⟩ := controller_ne_of_statelessWord hw
    simp [hload, histep, hwarmup, hinit, hgen, hdiscard]
  | wrkey | wriv => simp
  | load hv =>
    obtain ⟨hk, hi⟩ := hv
    simp [hk, hi]
  | init hv =>
    obtain ⟨hk, hi⟩ := hv
    obtain ⟨hready, -⟩ := finishInit_ready Config.tables (loadSession s) rfl (Nat.zero_le 32)
    simp [hk, hi, hready]
  | lengthError hi hv =>
    have hne : ¬(s.klen = 4 ∧ s.ivlen = 4) := hv
    obtain rfl | rfl := hi <;> simpa [raise_invalidInputLength] using hne
  | istep hp =>
    have hnext := initClock_phase_of_initializing Config.tables hp
    by_cases h32 : s.cnt = 32
    · rw [if_pos h32] at hnext
      simp [hp, h32, hnext, -initClock_phase]
    · rw [if_neg h32] at hnext
      simpa [hp, hnext, -initClock_phase] using h32
  | warmup hp =>
    obtain ⟨hready, -⟩ := finishInit_ready Config.tables s hp (h.initializing_cnt hp)
    simp [hp, hready]
  | gen hp => obtain hp | hp := hp <;> simp [hp]
  | sequenceError hf =>
    obtain ⟨rfl | rfl, hp⟩ | ⟨rfl, hp | hp⟩ := hf <;> simp [hp, raise_sequence]
  | discard => simp

/-- Settles O16: the table by the result of the command, and `rst` by its step. -/
theorem phaseMovesAsTheTableSays : Obligations.PhaseMovesAsTheTableSays := by
  constructor
  · intro i s h
    obtain ⟨t, he, hr⟩ := exec_result i s
    exact ⟨t, he, hr.phaseTable h⟩
  · intro s rest hp
    exact ⟨_, step_rst hp, rfl⟩

end Sys2Proof.Machine
end

section
/-! Without a session the cells and FSM registers cannot be observed (R36). -/

namespace Sys2Proof.Machine

theorem SameButUnloaded.refl (s : State) : SameButUnloaded s s :=
  ⟨rfl, rfl, rfl, rfl, rfl, rfl, rfl, rfl, fun _ => ⟨rfl, rfl, rfl, rfl⟩⟩

section
variable {s s' : State} (h : SameButUnloaded s s')
include h

/-- In a session the relation is equality. -/
theorem SameButUnloaded.eq_of_phase_ne (hp : s.phase ≠ .uninit) : s = s' := by
  obtain ⟨hph, hcnt, hkey, hiv, hklen, hivlen, hpend, hresp, hsession⟩ := h
  obtain ⟨hcells, h1, h2, h3⟩ := hsession hp
  exact State.ext hcells h1 h2 h3 hph hcnt hkey hiv hklen hivlen hpend hresp

theorem SameButUnloaded.response_eq : s.response = s'.response := by
  obtain ⟨-, -, -, -, -, -, -, hresp, -⟩ := h
  exact hresp

theorem SameButUnloaded.status_eq : s.status = s'.status := by
  obtain ⟨hph, hcnt, -, -, hklen, hivlen, -, -, -⟩ := h
  simp only [State.status, hph, hcnt, hklen, hivlen]

theorem SameButUnloaded.take (rest : List PortEvent) :
    SameButUnloaded { s with pending := rest } { s' with pending := rest } := by
  obtain ⟨hph, hcnt, hkey, hiv, hklen, hivlen, -, hresp, hsession⟩ := h
  exact ⟨hph, hcnt, hkey, hiv, hklen, hivlen, rfl, hresp, hsession⟩

theorem SameButUnloaded.respond (code : Resp) (data : Word) :
    SameButUnloaded (respond code data s) (respond code data s') := by
  obtain ⟨hph, hcnt, hkey, hiv, hklen, hivlen, hpend, -, hsession⟩ := h
  exact ⟨hph, hcnt, hkey, hiv, hklen, hivlen, hpend, rfl, hsession⟩

theorem SameButUnloaded.pushKey (word : Word) :
    SameButUnloaded { s with keyBuf := pushWord s.keyBuf s.klen word, klen := pushLen s.klen }
      { s' with keyBuf := pushWord s'.keyBuf s'.klen word, klen := pushLen s'.klen } := by
  obtain ⟨hph, hcnt, hkey, hiv, hklen, hivlen, hpend, hresp, hsession⟩ := h
  exact ⟨hph, hcnt, by rw [hkey, hklen], hiv, by rw [hklen], hivlen, hpend, hresp, hsession⟩

theorem SameButUnloaded.pushIv (word : Word) :
    SameButUnloaded { s with ivBuf := pushWord s.ivBuf s.ivlen word, ivlen := pushLen s.ivlen }
      { s' with ivBuf := pushWord s'.ivBuf s'.ivlen word, ivlen := pushLen s'.ivlen } := by
  obtain ⟨hph, hcnt, hkey, hiv, hklen, hivlen, hpend, hresp, hsession⟩ := h
  exact ⟨hph, hcnt, hkey, by rw [hiv, hivlen], hklen, by rw [hivlen], hpend, hresp, hsession⟩

/-- Clearing writes every cell and register. -/
theorem SameButUnloaded.clearState_eq : clearState s = clearState s' := by
  obtain ⟨-, -, -, -, -, -, hpend, hresp, -⟩ := h
  simp only [clearState, hpend, hresp]

theorem SameButUnloaded.assertRst_eq : assertRst s = assertRst s' := by
  obtain ⟨-, -, -, -, -, -, hpend, -, -⟩ := h
  simp only [assertRst, hpend]

/-- A load writes every cell and register from the buffers alone. -/
theorem SameButUnloaded.loadSession_eq : loadSession s = loadSession s' := by
  obtain ⟨-, -, hkey, hiv, -, -, hpend, hresp, -⟩ := h
  simp only [loadSession, clearBuffers, hkey, hiv, hpend, hresp]

theorem SameButUnloaded.lengthsValid_iff : lengthsValid s ↔ lengthsValid s' := by
  obtain ⟨-, -, -, -, hklen, hivlen, -, -, -⟩ := h
  rw [lengthsValid, lengthsValid, hklen, hivlen]

/-- In `UNINIT` a command has, for both states, the same kind of result: none that reads a cell or a register is
allowed there, and a load or a clear writes them all. -/
theorem SameButUnloaded.execResult_of_uninit (hp : s.phase = .uninit) {i : Instr} {t : State}
    (hr : ExecResult i s t) : ∃ t', ExecResult i s' t' ∧ SameButUnloaded t t' := by
  cases hr with
  | stateless hw => exact ⟨_, .stateless hw, h.respond _ _⟩
  | wrkey word => exact ⟨_, .wrkey word, (h.pushKey word).respond _ _⟩
  | wriv word => exact ⟨_, .wriv word, (h.pushIv word).respond _ _⟩
  | load hv => exact ⟨_, .load (h.lengthsValid_iff.1 hv), by rw [h.loadSession_eq]; exact .refl _⟩
  | init hv => exact ⟨_, .init (h.lengthsValid_iff.1 hv), by rw [h.loadSession_eq]; exact .refl _⟩
  | lengthError hi hv =>
    refine ⟨_, .lengthError hi (mt h.lengthsValid_iff.2 hv), ?_⟩
    rw [raise_invalidInputLength, raise_invalidInputLength, h.clearState_eq]
    exact .refl _
  | istep hp' | warmup hp' | gen hp' => simp [hp] at hp'
  | sequenceError hf =>
    obtain ⟨hph, -⟩ := id h
    exact ⟨_, .sequenceError (hph ▸ hf), h.respond _ _⟩
  | discard => exact ⟨_, .discard, by rw [h.clearState_eq]; exact .refl _⟩

theorem SameButUnloaded.execResult {i : Instr} {t : State} (hr : ExecResult i s t) :
    ∃ t', ExecResult i s' t' ∧ SameButUnloaded t t' := by
  by_cases hp : s.phase = .uninit
  · exact h.execResult_of_uninit hp hr
  · obtain rfl := h.eq_of_phase_ne hp
    exact ⟨t, hr, .refl t⟩

theorem SameButUnloaded.step : ∃ t t', step s = .next t ∧ step s' = .next t' ∧ SameButUnloaded t t' := by
  obtain ⟨-, -, -, -, -, -, hpend, -, -⟩ := id h
  obtain ⟨hp, he⟩ | ⟨rest, hp, he⟩ | ⟨cw, rest, i, hp, hd, he⟩ | ⟨cw, rest, e, hp, hd, he⟩ := step_cases s
  · exact ⟨_, _, he, step_idle (hpend ▸ hp), h⟩
  · refine ⟨_, _, he, step_rst (hpend ▸ hp), ?_⟩
    rw [(h.take rest).assertRst_eq]
    exact .refl _
  · obtain ⟨t, ht, hr⟩ := exec_result i { s with pending := rest }
    obtain ⟨t', hr', htt⟩ := (h.take rest).execResult hr
    exact ⟨t, t', he.trans ht, (step_command (hpend ▸ hp) hd).trans hr'.exec_eq, htt⟩
  · exact ⟨_, _, he, step_reserved (hpend ▸ hp) hd, (h.take rest).respond _ _⟩

end

/-- Settles O57: the relation is kept by every step, and related states show the same response and `STATUS`. -/
theorem unloadedValuesAreUnobservable : Obligations.UnloadedValuesAreUnobservable := by
  intro s s' h
  obtain ⟨t, t', hs, hs', htt⟩ := h.step
  exact ⟨t, t', hs, hs', htt, htt.response_eq, htt.status_eq⟩

end Sys2Proof.Machine
end

section
/-! Decoder and encoder (R82 to R84, R87, R88). `readOperands` is the part of the decoder that reads the operand fields;
each format is a choice of byte lanes of the operand word, and from that decode and encode undo each other. -/

namespace Sys2Proof.Machine

open Sys2Proof.Laws

/-! ### Operand fields and formats as byte lanes -/

theorem byteField_eq_lane3 (cw : CommandWord) : byteField cw = lane3 (wordField cw) := by
  conv_lhs => rw [← opcodeField_append_wordField cw]
  exact byteField_append _ _

theorem valueField_eq_lane3 (cw : CommandWord) : valueField cw = lane3 (wordField cw) :=
  byteField_eq_lane3 cw

theorem constantField_eq_lane2 (cw : CommandWord) : constantField cw = lane2 (wordField cw) := by
  conv_lhs => rw [← opcodeField_append_wordField cw]
  exact constantField_append _ _

theorem exponentField_eq_lane1 (cw : CommandWord) : exponentField cw = (lane1 (wordField cw)).toNat := by
  conv_lhs => rw [← opcodeField_append_wordField cw]
  exact exponentField_append _ _

theorem operandB_eq_lanes (byte : Byte) : operandB byte = lanes 0#8 0#8 0#8 byte := rfl

theorem operandM_eq_lanes (value constant : Byte) : operandM value constant = lanes 0#8 0#8 constant value := rfl

theorem operandP_eq_lanes (value : Byte) (exponent : Nat) (constant : Byte) :
    operandP value exponent constant = lanes 0#8 (BitVec.ofNat 8 exponent) constant value := rfl

theorem lanes_and_lanes (a b c d a' b' c' d' : Byte) :
    lanes a b c d &&& lanes a' b' c' d' = lanes (a &&& a') (b &&& b') (c &&& c') (d &&& d') := by
  unfold lanes
  rw [BitVec.and_append, BitVec.and_append, BitVec.and_append]

/-- Masking a word masks its lanes. -/
theorem and_lanes (w : Word) (a b c d : Byte) :
    w &&& lanes a b c d = lanes (lane0 w &&& a) (lane1 w &&& b) (lane2 w &&& c) (lane3 w &&& d) := by
  conv_lhs => rw [← lanes_of_lanes w]
  exact lanes_and_lanes _ _ _ _ _ _ _ _

/-- The opcode is used in every format (R83), so the mask acts on the operand word alone. -/
theorem and_usedBits (cw : CommandWord) (i : Instr) :
    cw &&& usedBits i = commandWord (opcodeField cw) (wordField cw &&& wordField (usedBits i)) := by
  have hones : opcodeField (usedBits i) = BitVec.allOnes 8 := by
    cases i <;> (simp only [usedBits]; decide)
  calc cw &&& usedBits i
      = (opcodeField cw ++ wordField cw) &&& (opcodeField (usedBits i) ++ wordField (usedBits i)) := by
        rw [opcodeField_append_wordField, opcodeField_append_wordField]
    _ = (opcodeField cw &&& opcodeField (usedBits i)) ++ (wordField cw &&& wordField (usedBits i)) :=
        BitVec.and_append
    _ = commandWord (opcodeField cw) (wordField cw &&& wordField (usedBits i)) := by
        rw [hones, BitVec.and_allOnes]; rfl

/-! ### Reading the operands of a row -/

/-- The command of `i`'s row of the opcode map, with the operands its format reads from `cw` (R83, R87). -/
def readOperands (cw : CommandWord) : Instr → Instr
  | .nop => .nop
  | .wrkey _ => .wrkey (wordField cw)
  | .wriv _ => .wriv (wordField cw)
  | .load => .load
  | .istep => .istep
  | .warmup => .warmup
  | .init => .init
  | .gen => .gen
  | .discard => .discard
  | .mulc _ _ => .mulc (valueField cw) (constantField cw)
  | .pow _ _ _ => .pow (valueField cw) (exponentField cw) (constantField cw)
  | .expand _ => .expand (byteField cw)
  | .contract _ => .contract (byteField cw)
  | .boxr _ => .boxr (byteField cw)
  | .boxq _ => .boxq (byteField cw)
  | .wt1 _ => .wt1 (wordField cw)
  | .wt2 _ => .wt2 (wordField cw)

/-- An exponent read from its 8-bit field is at most 255 (R87). -/
theorem wellFormed_readOperands (cw : CommandWord) (i : Instr) : (readOperands cw i).WellFormed := by
  cases i with
  | pow =>
    have hlt : exponentField cw < 2 ^ 8 := BitVec.isLt _
    exact decide_eq_true (Nat.le_of_lt_succ hlt)
  | _ => rfl

theorem readOperands_readOperands (cw cw' : CommandWord) (i : Instr) :
    readOperands cw (readOperands cw' i) = readOperands cw i := by
  cases i <;> rfl

/-- Reading back the operands that the encoder wrote. -/
theorem readOperands_encode {i : Instr} (hi : i.WellFormed) : readOperands (encode i) i = i := by
  have hw : wordField (encode i) = operandOf i := wordField_append _ _
  cases i with
  | nop | load | istep | warmup | init | gen | discard => rfl
  | wrkey | wriv | wt1 | wt2 => simp only [readOperands, hw, operandOf, operandW]
  | expand | contract | boxr | boxq =>
    simp only [readOperands, byteField_eq_lane3, hw, operandOf, operandB_eq_lanes, lane3_lanes]
  | mulc =>
    simp only [readOperands, valueField_eq_lane3, constantField_eq_lane2, hw, operandOf, operandM_eq_lanes,
      lane2_lanes, lane3_lanes]
  | pow value exponent constant =>
    have hle : exponent ≤ 255 := of_decide_eq_true hi
    have hexp : (BitVec.ofNat 8 exponent).toNat = exponent := Nat.mod_eq_of_lt (by omega)
    simp only [readOperands, valueField_eq_lane3, constantField_eq_lane2, exponentField_eq_lane1, hw, operandOf,
      operandP_eq_lanes, lane1_lanes, lane2_lanes, lane3_lanes, hexp]

/-- Writing back the operands that were read gives the operand word with the ignored bits cleared: the mask of each
format has all bits of the lanes that the format reads. -/
theorem operandOf_readOperands (cw : CommandWord) (i : Instr) :
    operandOf (readOperands cw i) = wordField cw &&& wordField (usedBits i) := by
  cases i with
  | nop | load | istep | warmup | init | gen | discard => exact BitVec.and_zero.symm
  | wrkey | wriv | wt1 | wt2 =>
    have hmask : wordField 0xFFFFFFFFFF#40 = BitVec.allOnes 32 := by decide
    simp only [readOperands, operandOf, operandW, usedBits, hmask, BitVec.and_allOnes]
  | expand | contract | boxr | boxq =>
    have hmask : wordField 0xFF000000FF#40 = lanes 0#8 0#8 0#8 (.allOnes 8) := by decide
    simp only [readOperands, operandOf, usedBits, hmask, and_lanes, BitVec.and_zero, BitVec.and_allOnes,
      operandB_eq_lanes, byteField_eq_lane3]
  | mulc =>
    have hmask : wordField 0xFF0000FFFF#40 = lanes 0#8 0#8 (.allOnes 8) (.allOnes 8) := by decide
    simp only [readOperands, operandOf, usedBits, hmask, and_lanes, BitVec.and_zero, BitVec.and_allOnes,
      operandM_eq_lanes, valueField_eq_lane3, constantField_eq_lane2]
  | pow =>
    have hmask : wordField 0xFF00FFFFFF#40 = lanes 0#8 (.allOnes 8) (.allOnes 8) (.allOnes 8) := by decide
    simp only [readOperands, operandOf, usedBits, hmask, and_lanes, BitVec.and_zero, BitVec.and_allOnes,
      operandP_eq_lanes, valueField_eq_lane3, constantField_eq_lane2, exponentField_eq_lane1, BitVec.ofNat_toNat,
      BitVec.setWidth_eq]

theorem opcodeOf_readOperands (cw : CommandWord) (i : Instr) : opcodeOf (readOperands cw i) = opcodeOf i := by
  cases i <;> rfl

/-- Encoding what is read in `i`'s format is masking, for a word with `i`'s opcode. -/
theorem encode_readOperands {cw : CommandWord} {i : Instr} (hop : opcodeField cw = opcodeOf i) :
    encode (readOperands cw i) = cw &&& usedBits i := by
  rw [encode, opcodeOf_readOperands, operandOf_readOperands, and_usedBits, hop]

/-! ### The decoder: all it can answer -/

theorem decode_of_opcode {cw : CommandWord} {i : Instr} (hop : opcodeField cw = opcodeOf i) :
    decode cw = .ok (readOperands cw i) := by
  unfold decode
  rw [hop]
  cases i <;> rfl

theorem decode_ok {cw : CommandWord} {i : Instr} (hd : decode cw = .ok i) :
    opcodeField cw = opcodeOf i ∧ readOperands cw i = i := by
  unfold decode at hd
  split at hd <;> cases hd
  all_goals next hop => exact ⟨BitVec.eq_of_toNat_eq hop, rfl⟩

/-- The opcodes without a row (R88). -/
def ReservedOpcode (opcode : Byte) : Prop :=
  (0x09 ≤ opcode.toNat ∧ opcode.toNat ≤ 0x0F) ∨ 0x18 ≤ opcode.toNat

theorem decode_error {cw : CommandWord} {e : DecodeError} (hd : decode cw = .error e) :
    e = .reservedOpcode (opcodeField cw) ∧ ReservedOpcode (opcodeField cw) := by
  unfold decode at hd
  split at hd <;> cases hd
  refine ⟨rfl, ?_⟩
  simp only [imp_false] at *
  unfold ReservedOpcode
  omega

/-- A word decodes to `i` exactly when it is the encoding of `i` up to ignored bits. -/
theorem decode_eq_ok_iff {cw : CommandWord} {i : Instr} :
    decode cw = .ok i ↔ i.WellFormed ∧ encode i = cw &&& usedBits i := by
  constructor
  · intro hd
    obtain ⟨hop, hread⟩ := decode_ok hd
    have hwf := wellFormed_readOperands cw i
    have henc := encode_readOperands hop
    rw [hread] at hwf henc
    exact ⟨hwf, henc⟩
  · rintro ⟨hwf, henc⟩
    have hop : opcodeField cw = opcodeOf i := by
      rw [and_usedBits] at henc
      simpa only [encode, commandWord, opcodeField_append] using (congrArg opcodeField henc).symm
    have hsame : encode (readOperands cw i) = encode i := (encode_readOperands hop).trans henc.symm
    calc decode cw = .ok (readOperands cw i) := decode_of_opcode hop
      _ = .ok (readOperands (encode (readOperands cw i)) (readOperands cw i)) := by
        rw [readOperands_encode (wellFormed_readOperands cw i)]
      _ = .ok i := by rw [readOperands_readOperands, hsame, readOperands_encode hwf]

/-! ### Rows of the opcode map -/

theorem rowMatch_eq (i : Instr) : rowMatch i = commandWord (opcodeOf i) 0 := by
  cases i <;> (simp only [rowMatch, opcodeOf]; decide)

theorem and_rowMask (cw : CommandWord) : cw &&& rowMask = commandWord (opcodeField cw) 0 := by
  conv_lhs => rw [← opcodeField_append_wordField cw]
  exact commandWord_and_rowMask _ _

theorem opcodeField_toNat (cw : CommandWord) : (opcodeField cw).toNat = cw.toNat / 2 ^ 32 := by
  have hlt := cw.isLt
  rw [opcodeField, BitVec.extractLsb'_toNat, Nat.shiftRight_eq_div_pow]
  omega

/-! ### The statements -/

/-- Settles O1: the encoder writes the opcode of the row and the operands the row's format reads back. -/
theorem decodeUndoesEncode : Obligations.DecodeUndoesEncode := by
  intro i hi
  have hop : opcodeField (encode i) = opcodeOf i := opcodeField_append _ _
  rw [decode_of_opcode hop, readOperands_encode hi]

/-- Settles O2: the part from left to right of `decode_eq_ok_iff`. -/
theorem encodeRecoversUsedBits : Obligations.EncodeRecoversUsedBits :=
  fun _ _ => decode_eq_ok_iff.1

/-- Settles O3: decoding to `i` is a condition on the used bits alone, and a step runs the command decoded. -/
theorem ignoredBitsChangeNothing : Obligations.IgnoredBitsChangeNothing := by
  intro s cw cw' i hd hsame
  have hd' : decode cw' = .ok i := by rwa [decode_eq_ok_iff, hsame, ← decode_eq_ok_iff]
  refine ⟨hd', ?_⟩
  rw [step_command (giveCommand_pending cw' s) hd', step_command (giveCommand_pending cw s) hd]
  rfl

/-- Settles O4: by the answer of the decoder. -/
theorem commandWordSelectsItsRowOrIsReserved : Obligations.CommandWordSelectsItsRowOrIsReserved := by
  intro cw
  cases hd : decode cw with
  | ok i =>
    obtain ⟨hop, -⟩ := decode_ok hd
    refine .inl ⟨i, rfl, ?_⟩
    rw [rowMatch_eq, ← hop]
    exact and_rowMask cw
  | error e =>
    obtain ⟨rfl, hres⟩ := decode_error hd
    rw [ReservedOpcode, opcodeField_toNat] at hres
    exact .inr ⟨rfl, hres⟩

/-- Settles O5: each literal word is decoded by evaluation. -/
theorem sampleCommandWordsDecode : Obligations.SampleCommandWordsDecode := by
  unfold Obligations.SampleCommandWordsDecode
  decide

end Sys2Proof.Machine
end

section
/-! The Galois-field primitives on bytes (R110, R111). `mulByConst` is linear over XOR, and with an odd constant it is
injective; `power` is its iterate. A map that is linear and commutes with doubling is therefore known by its value at 1,
which is how an identity between powers is carried from 1 to every byte. -/

namespace Sys2Proof.Machine

/-! ### `mulByConst` -/

theorem mulByConst_eq_xor (v c : Byte) : mulByConst v c = (v <<< 1) ^^^ (if v.msb then c else 0) := by
  unfold mulByConst
  split
  · rfl
  · exact BitVec.xor_zero.symm

theorem mulByConst_xor (a b c : Byte) : mulByConst (a ^^^ b) c = mulByConst a c ^^^ mulByConst b c := by
  have hmask : (if (a ^^^ b).msb then c else 0) = (if a.msb then c else 0) ^^^ (if b.msb then c else 0) := by
    rw [BitVec.msb_xor]
    cases a.msb <;> cases b.msb <;> simp
  simp only [mulByConst_eq_xor, BitVec.shiftLeft_xor_distrib, hmask]
  ac_rfl

theorem mulByConst_zero_right (v : Byte) : mulByConst v 0 = v <<< 1 := by
  simp [mulByConst_eq_xor]

theorem mulByConst_toNat_of_lt {v : Byte} (hv : v.toNat < 128) (c : Byte) :
    (mulByConst v c).toNat = 2 * v.toNat := by
  have hmsb : v.msb = false := by rw [BitVec.msb_eq_decide]; simpa using hv
  have hshift : mulByConst v c = v <<< 1 := by simp [mulByConst, hmsb]
  rw [hshift, BitVec.toNat_shiftLeft, Nat.shiftLeft_eq]
  omega

theorem mulByConst_toNat_of_le {v : Byte} (hv : 128 ≤ v.toNat) (c : Byte) :
    (mulByConst v c).toNat = (2 * v.toNat - 256) ^^^ c.toNat := by
  have hmsb : v.msb = true := by rw [BitVec.msb_eq_decide]; simpa using hv
  have hlt := v.isLt
  have hshift : (v <<< 1).toNat = 2 * v.toNat - 256 := by
    rw [BitVec.toNat_shiftLeft, Nat.shiftLeft_eq]
    omega
  simp only [mulByConst, hmsb, if_true, BitVec.toNat_xor, hshift]

/-- The bit shifted out at the top comes back as the low bit of the result, so nothing is lost (R114). -/
theorem mulByConst_getLsbD_zero {c : Byte} (hc : c.getLsbD 0 = true) (v : Byte) :
    (mulByConst v c).getLsbD 0 = v.msb := by
  rw [mulByConst_eq_xor, BitVec.getLsbD_xor]
  cases v.msb <;> simp [hc]

theorem eq_zero_of_mulByConst_eq_zero {v c : Byte} (hc : c.getLsbD 0 = true) (h : mulByConst v c = 0) : v = 0 := by
  have hmsb : v.msb = false := by
    rw [← mulByConst_getLsbD_zero hc v, h]
    rfl
  have hlt : v.toNat < 128 := by
    rw [BitVec.msb_eq_decide] at hmsb
    simpa using hmsb
  have hdouble := mulByConst_toNat_of_lt hlt c
  rw [h] at hdouble
  exact BitVec.eq_of_toNat_eq (by simpa using hdouble.symm)

theorem mulByConst_injective {c : Byte} (hc : c.getLsbD 0 = true) : Function.Injective (mulByConst · c) := by
  intro a b hab
  have hzero : mulByConst (a ^^^ b) c = 0 := (mulByConst_xor a b c).trans (BitVec.xor_eq_zero_iff.2 hab)
  exact BitVec.xor_eq_zero_iff.1 (eq_zero_of_mulByConst_eq_zero hc hzero)

/-! ### `power` -/

theorem power_eq_iterate (v : Byte) (n : Nat) (c : Byte) : power v n c = (mulByConst · c)^[n] v := by
  induction n with
  | zero => rfl
  | succ n ih => rw [Function.iterate_succ_apply', ← ih]; rfl

theorem power_power (v c : Byte) (a b : Nat) : power (power v a c) b c = power v (a + b) c := by
  simp only [power_eq_iterate, ← Function.iterate_add_apply, Nat.add_comm]

theorem power_power_comm (v c : Byte) (a b : Nat) : power (power v a c) b c = power (power v b c) a c := by
  rw [power_power, power_power, Nat.add_comm]

theorem power_xor (a b c : Byte) (n : Nat) : power (a ^^^ b) n c = power a n c ^^^ power b n c := by
  induction n with
  | zero => rfl
  | succ n ih => simp only [power, ih, mulByConst_xor]

theorem power_zero_left (n : Nat) (c : Byte) : power 0 n c = 0 := by
  induction n with
  | zero => rfl
  | succ n ih => rw [power, ih]; rfl

theorem eq_zero_of_power_eq_zero {v c : Byte} (hc : c.getLsbD 0 = true) {n : Nat} (h : power v n c = 0) : v = 0 := by
  rw [← power_zero_left n c, power_eq_iterate, power_eq_iterate] at h
  exact (mulByConst_injective hc).iterate n h

/-! ### Linear maps on bytes -/

/-- Linear over XOR (R115). -/
def XorLinear {w : Nat} (f : Byte → BitVec w) : Prop := ∀ a b, f (a ^^^ b) = f a ^^^ f b

theorem XorLinear.map_zero {w : Nat} {f : Byte → BitVec w} (hf : XorLinear f) : f 0 = 0 := by
  have h := hf 0 0
  rwa [BitVec.xor_self, BitVec.xor_self] at h

/-- The XOR of the words `f k` over the set bits `k < n` of `b`, from the low bit up. -/
def xorOfSetBits {w : Nat} (f : Nat → BitVec w) (n : Nat) (b : Byte) : BitVec w :=
  (List.range n).foldl (fun acc k => if b.getLsbD k then acc ^^^ f k else acc) 0

theorem xorOfSetBits_succ {w : Nat} (f : Nat → BitVec w) (n : Nat) (b : Byte) :
    xorOfSetBits f (n + 1) b = xorOfSetBits f n b ^^^ (if b.getLsbD n then f n else 0) := by
  simp only [xorOfSetBits, List.range_succ, List.foldl_append, List.foldl_cons, List.foldl_nil]
  split
  · rfl
  · exact BitVec.xor_zero.symm

theorem xorOfSetBits_congr {w : Nat} {f g : Nat → BitVec w} {n : Nat} (h : ∀ k < n, f k = g k) (b : Byte) :
    xorOfSetBits f n b = xorOfSetBits g n b := by
  induction n with
  | zero => rfl
  | succ n ih =>
    rw [xorOfSetBits_succ, xorOfSetBits_succ, ih fun k hk => h k (Nat.lt_succ_of_lt hk), h n (Nat.lt_succ_self n)]

/-- The low `n + 1` bits of a byte are its low `n` bits and bit `n`. -/
theorem lowBits_succ (b : Byte) (n : Nat) :
    (b.setWidth (n + 1)).setWidth 8 = (b.setWidth n).setWidth 8 ^^^ (if b.getLsbD n then (1 : Byte) <<< n else 0) := by
  refine BitVec.eq_of_getLsbD_eq fun i hi => ?_
  obtain hlt | rfl | hgt := lt_trichotomy i n
  · cases b.getLsbD n <;> simp [hi, hlt, Nat.lt_succ_of_lt hlt]
  · cases hb : b.getLsbD i <;> simpa [hi] using hb
  · cases b.getLsbD n <;> simp [hi, hgt.not_gt, Nat.not_lt.2 hgt, show i - n ≠ 0 by omega]

theorem XorLinear.map_lowBits {w : Nat} {f : Byte → BitVec w} (hf : XorLinear f) (b : Byte) (n : Nat) :
    f ((b.setWidth n).setWidth 8) = xorOfSetBits (fun k => f ((1 : Byte) <<< k)) n b := by
  induction n with
  | zero => rw [BitVec.eq_nil (b.setWidth 0)]; exact hf.map_zero
  | succ n ih =>
    rw [lowBits_succ, hf, ih, xorOfSetBits_succ, apply_ite f, hf.map_zero]

/-- A linear map is the XOR of its basis words over the set bits of the byte (R115). -/
theorem XorLinear.eq_xorOfSetBits {w : Nat} {f : Byte → BitVec w} (hf : XorLinear f) (b : Byte) :
    f b = xorOfSetBits (fun k => f ((1 : Byte) <<< k)) 8 b := by
  have h := hf.map_lowBits b 8
  rwa [BitVec.setWidth_eq, BitVec.setWidth_eq] at h

/-! ### Linear maps that commute with doubling -/

/-- Linear over XOR and commuting with doubling by `c`: what multiplication by a fixed polynomial is. -/
structure DoublingLinear (c : Byte) (f : Byte → Byte) : Prop where
  map_xor : XorLinear f
  map_power : ∀ v n, f (power v n c) = power (f v) n c

theorem doublingLinear_power (c : Byte) (n : Nat) : DoublingLinear c (power · n c) :=
  ⟨fun a b => power_xor a b c n, fun v m => power_power_comm v c m n⟩

theorem DoublingLinear.xor {c : Byte} {f g : Byte → Byte} (hf : DoublingLinear c f) (hg : DoublingLinear c g) :
    DoublingLinear c (fun v => f v ^^^ g v) where
  map_xor a b := by simp only [hf.map_xor a b, hg.map_xor a b]; ac_rfl
  map_power v n := by simp only [hf.map_power, hg.map_power, power_xor]

/-- The eight one-bit bytes are reached from 1 by doubling, and no constant is XORed in on the way. -/
theorem power_one_of_lt (c : Byte) {k : Nat} (hk : k < 8) : power 1 k c = (1 : Byte) <<< k := by
  induction k with
  | zero => rfl
  | succ k ih =>
    have hmsb : ((1 : Byte) <<< k).msb = false := by
      have hk7 : k < 7 := by omega
      interval_cases k <;> rfl
    rw [power, ih (by omega), mulByConst, hmsb, BitVec.shiftLeft_add]
    rfl

/-- Two such maps that agree at 1 agree on every byte. -/
theorem DoublingLinear.eq_of_one {c : Byte} {f g : Byte → Byte} (hf : DoublingLinear c f) (hg : DoublingLinear c g)
    (h1 : f 1 = g 1) (v : Byte) : f v = g v := by
  rw [hf.map_xor.eq_xorOfSetBits v, hg.map_xor.eq_xorOfSetBits v]
  refine xorOfSetBits_congr (fun k hk => ?_) v
  rw [← power_one_of_lt c hk, hf.map_power, hg.map_power, h1]

end Sys2Proof.Machine
end

section
/-! The periods of the three doubling maps (R116). -/

namespace Sys2Proof.Machine

theorem power_eq_self_of_one {c : Byte} {p : Nat} (h1 : power 1 p c = 1) (v : Byte) : power v p c = v :=
  (doublingLinear_power c p).eq_of_one (doublingLinear_power c 0) h1 v

/-- With `x` for doubling: where `x ^ n + 1 = x ^ m`, a byte fixed by `n` doublings is taken to 0 by `m` doublings, and
so it is 0. -/
theorem power_ne_self_of_xor_one {c : Byte} (hc : c.getLsbD 0 = true) {n m : Nat}
    (h1 : power 1 n c ^^^ 1 = power 1 m c) {v : Byte} (hv : v ≠ 0) : power v n c ≠ v := by
  intro hfix
  have hxor : power v n c ^^^ v = power v m c :=
    ((doublingLinear_power c n).xor (doublingLinear_power c 0)).eq_of_one (doublingLinear_power c m) h1 v
  rw [hfix, BitVec.xor_self] at hxor
  exact hv (eq_zero_of_power_eq_zero hc hxor.symm)

/-- The reduction polynomial of constant 0x1B: `x ^ 8 = x ^ 4 + x ^ 3 + x + 1`. -/
theorem power_eight_constR (v : Byte) :
    power v 8 constR = (power v 4 constR ^^^ power v 3 constR) ^^^ (power v 1 constR ^^^ v) := by
  have hp := doublingLinear_power constR
  exact (hp 8).eq_of_one (((hp 4).xor (hp 3)).xor ((hp 1).xor (hp 0))) (by decide) v

/-- A byte fixed by three doublings is taken to 0 by two, by the reduction polynomial. -/
theorem power_three_constR_ne_self {v : Byte} (hv : v ≠ 0) : power v 3 constR ≠ v := by
  intro h3
  have h4 : power v 4 constR = power v 1 constR := by rw [← power_power v constR 3 1, h3]
  have h8 : power v 8 constR = power v 2 constR := by
    rw [← power_power v constR 3 5, h3, ← power_power v constR 3 2, h3]
  have hpoly := power_eight_constR v
  rw [h3, h4, h8, BitVec.xor_comm (power v 1 constR) v, BitVec.xor_self] at hpoly
  exact hv (eq_zero_of_power_eq_zero (by decide) hpoly)

/-- The test for an order, for one byte: `p` doublings fix it, and `p / q` do not for any prime divisor `q` of `p`. -/
theorem power_eq_self_iff_dvd {v c : Byte} {p : Nat} (hper : power v p c = v)
    (hprime : ∀ q, q.Prime → q ∣ p → power v (p / q) c ≠ v) (n : Nat) : power v n c = v ↔ p ∣ n := by
  have hper_iff (m : Nat) : power v m c = v ↔ Function.minimalPeriod (mulByConst · c) v ∣ m := by
    rw [power_eq_iterate]
    exact Function.isPeriodicPt_iff_minimalPeriod_dvd
  simp only [ne_eq, hper_iff] at hper hprime ⊢
  obtain ⟨a, ha⟩ := hper
  obtain rfl | hne := eq_or_ne a 1
  · rw [ha, Nat.mul_one]
  · obtain ⟨r, hr⟩ := a.minFac_dvd
    have hp : p = a.minFac * (Function.minimalPeriod (mulByConst · c) v * r) := by
      rw [ha]
      conv_lhs => rw [hr]
      ac_rfl
    have hq := Nat.minFac_prime hne
    refine absurd ?_ (hprime a.minFac hq ⟨_, hp⟩)
    rw [hp, Nat.mul_div_cancel_left _ hq.pos]
    exact Dvd.intro r rfl

theorem eq_of_prime_dvd_51 {q : Nat} (hq : q.Prime) (hdvd : q ∣ 51) : q = 3 ∨ q = 17 := by
  rw [show 51 = 3 * 17 by norm_num, hq.dvd_mul] at hdvd
  simpa [Nat.prime_dvd_prime_iff_eq hq, show Nat.Prime 3 by norm_num, show Nat.Prime 17 by norm_num] using hdvd

theorem eq_of_prime_dvd_255 {q : Nat} (hq : q.Prime) (hdvd : q ∣ 255) : q = 3 ∨ q = 5 ∨ q = 17 := by
  rw [show 255 = 3 * (5 * 17) by norm_num, hq.dvd_mul, hq.dvd_mul] at hdvd
  simpa [Nat.prime_dvd_prime_iff_eq hq, show Nat.Prime 3 by norm_num, show Nat.Prime 5 by norm_num,
    show Nat.Prime 17 by norm_num] using hdvd

/-! ### The three periods -/

theorem power_255_constA (v : Byte) : power v 255 constA = v :=
  power_eq_self_of_one (by decide +kernel) v

theorem power_255_constQ (v : Byte) : power v 255 constQ = v :=
  power_eq_self_of_one (by decide +kernel) v

theorem power_51_constR (v : Byte) : power v 51 constR = v :=
  power_eq_self_of_one (by decide +kernel) v

/-- Period 255 on every non-zero byte: the exponents `255 / q` for the primes `q` of 255 are 85, 51 and 15. -/
theorem power_eq_self_iff_255_dvd {c : Byte} (hc : c.getLsbD 0 = true) (h255 : power 1 255 c = 1) {i j k : Nat}
    (h85 : power 1 85 c ^^^ 1 = power 1 i c) (h51 : power 1 51 c ^^^ 1 = power 1 j c)
    (h15 : power 1 15 c ^^^ 1 = power 1 k c) {v : Byte} (hv : v ≠ 0) (n : Nat) : power v n c = v ↔ 255 ∣ n := by
  refine power_eq_self_iff_dvd (power_eq_self_of_one h255 v) (fun q hq hdvd => ?_) n
  obtain rfl | rfl | rfl := eq_of_prime_dvd_255 hq hdvd
  · exact power_ne_self_of_xor_one hc h85 hv
  · exact power_ne_self_of_xor_one hc h51 hv
  · exact power_ne_self_of_xor_one hc h15 hv

theorem power_constA_eq_self_iff {v : Byte} (hv : v ≠ 0) (n : Nat) : power v n constA = v ↔ 255 ∣ n :=
  power_eq_self_iff_255_dvd (i := 170) (j := 238) (k := 186) (by decide) (power_255_constA 1)
    (by decide +kernel) (by decide +kernel) (by decide +kernel) hv n

theorem power_constQ_eq_self_iff {v : Byte} (hv : v ≠ 0) (n : Nat) : power v n constQ = v ↔ 255 ∣ n :=
  power_eq_self_iff_255_dvd (i := 170) (j := 68) (k := 254) (by decide) (power_255_constQ 1)
    (by decide +kernel) (by decide +kernel) (by decide +kernel) hv n

theorem power_constR_eq_self_iff {v : Byte} (hv : v ≠ 0) (n : Nat) : power v n constR = v ↔ 51 ∣ n := by
  refine power_eq_self_iff_dvd (power_51_constR v) (fun q hq hdvd => ?_) n
  obtain rfl | rfl := eq_of_prime_dvd_51 hq hdvd
  · have h17 : power 1 17 constR ^^^ 1 = power 1 34 constR := by decide +kernel
    exact power_ne_self_of_xor_one (by decide) h17 hv
  · exact power_three_constR_ne_self hv

end Sys2Proof.Machine
end

section
/-! `expandWord` and `contractWord` (R112, R113): four powers packed in byte lanes, and the two word maps of the LFSR
feedback, which are inverse to each other because their exponents add up lane by lane modulo the period 255 (R117). -/

namespace Sys2Proof.Machine

/-! ### Byte lanes under XOR, OR and shifts by a byte -/

theorem lanes_xor_lanes (a b c d a' b' c' d' : Byte) :
    lanes a b c d ^^^ lanes a' b' c' d' = lanes (a ^^^ a') (b ^^^ b') (c ^^^ c') (d ^^^ d') := by
  unfold lanes
  rw [BitVec.xor_append, BitVec.xor_append, BitVec.xor_append]

theorem lanes_eq_or (a b c d : Byte) :
    lanes a b c d =
      (a.setWidth 32 <<< 24) ||| (b.setWidth 32 <<< 16) ||| (c.setWidth 32 <<< 8) ||| d.setWidth 32 := by
  refine BitVec.eq_of_getLsbD_eq fun i hi => ?_
  simp only [lanes, BitVec.getLsbD_append, BitVec.getLsbD_or, BitVec.getLsbD_shiftLeft, BitVec.getLsbD_setWidth]
  grind

theorem lanes_shiftLeft_eight (a b c d : Byte) : lanes a b c d <<< 8 = lanes b c d 0#8 := by
  refine BitVec.eq_of_getLsbD_eq fun i hi => ?_
  simp only [lanes, BitVec.getLsbD_append, BitVec.getLsbD_shiftLeft, BitVec.getLsbD_zero]
  grind

theorem lanes_shiftRight_eight (a b c d : Byte) : lanes a b c d >>> 8 = lanes 0#8 a b c := by
  refine BitVec.eq_of_getLsbD_eq fun i hi => ?_
  simp only [lanes, BitVec.getLsbD_append, BitVec.getLsbD_ushiftRight, BitVec.getLsbD_zero]
  grind

/-! ### Linearity -/

theorem expandWord_xorLinear : XorLinear expandWord := fun a b => by
  simp only [expandWord, power_xor, lanes_xor_lanes]

theorem contractWord_xorLinear : XorLinear contractWord := fun a b => by
  simp only [contractWord, power_xor, lanes_xor_lanes]

/-! ### The word maps of the feedback -/

theorem power_add_255_constA (v : Byte) (n : Nat) : power v (255 + n) constA = power v n constA := by
  rw [← power_power, power_255_constA]

theorem mulAlpha_lanes (a b c d : Byte) :
    mulAlpha (lanes a b c d) =
      lanes (b ^^^ power a 23 constA) (c ^^^ power a 245 constA) (d ^^^ power a 48 constA) (power a 239 constA) := by
  rw [mulAlpha, lane0_lanes, lanes_shiftLeft_eight, expandWord, lanes_xor_lanes, BitVec.zero_xor]

theorem divAlpha_lanes (a b c d : Byte) :
    divAlpha (lanes a b c d) =
      lanes (power d 16 constA) (a ^^^ power d 39 constA) (b ^^^ power d 6 constA) (c ^^^ power d 64 constA) := by
  rw [divAlpha, lane3_lanes, lanes_shiftRight_eight, contractWord, lanes_xor_lanes, BitVec.zero_xor]

/-- `expandWord` then `contractWord`: their exponents add up to those of `expandWord` again, with 255 in lane 0. -/
theorem contractWord_power_239 (v : Byte) :
    contractWord (power v 239 constA) = lanes v (power v 23 constA) (power v 245 constA) (power v 48 constA) := by
  have h16 := power_255_constA v
  have h39 := power_add_255_constA v 23
  have h64 := power_add_255_constA v 48
  simp only [contractWord, power_power, Nat.reduceAdd] at h39 h64 ⊢
  rw [h16, h39, h64]

/-- `contractWord` then `expandWord`: their exponents add up to those of `contractWord` again, with 255 in lane 3. -/
theorem expandWord_power_16 (v : Byte) :
    expandWord (power v 16 constA) = lanes (power v 39 constA) (power v 6 constA) (power v 64 constA) v := by
  have h245 := power_add_255_constA v 6
  have h239 := power_255_constA v
  simp only [expandWord, power_power, Nat.reduceAdd] at h245 ⊢
  rw [h245, h239]

theorem divAlpha_mulAlpha (w : Word) : divAlpha (mulAlpha w) = w := by
  rw [← lanes_of_lanes w, mulAlpha_lanes, divAlpha, lane3_lanes, lanes_shiftRight_eight, contractWord_power_239,
    lanes_xor_lanes]
  simp only [BitVec.xor_assoc, BitVec.xor_self, BitVec.xor_zero, BitVec.zero_xor]

theorem mulAlpha_divAlpha (w : Word) : mulAlpha (divAlpha w) = w := by
  rw [← lanes_of_lanes w, divAlpha_lanes, mulAlpha, lane0_lanes, lanes_shiftLeft_eight, expandWord_power_16,
    lanes_xor_lanes]
  simp only [BitVec.xor_assoc, BitVec.xor_self, BitVec.xor_zero, BitVec.zero_xor]

end Sys2Proof.Machine
end

section
/-! The statements about the Galois-field primitives (spec/40_gf_primitives.md). -/

namespace Sys2Proof.Machine

/-- Settles O18: `power` is an iterate, and each doubling keeps 0. -/
theorem powerRepeatsDoubling : Obligations.PowerRepeatsDoubling :=
  fun v c n => ⟨rfl, rfl, power_eq_iterate v n c, power_zero_left n c, rfl⟩

/-- Settles O21: each primitive is linear, and a linear map is given by its basis words; these are evaluated. -/
theorem galoisPrimitivesAreLinear : Obligations.GaloisPrimitivesAreLinear :=
  ⟨mulByConst_xor, power_xor, expandWord_xorLinear, contractWord_xorLinear,
    expandWord_xorLinear.eq_xorOfSetBits, contractWord_xorLinear.eq_xorOfSetBits,
    by decide +kernel, by decide +kernel⟩

/-- Settles O22: exponents add; the periods from the exponents of 1; an injective map on the finite type of bytes is a
bijection. -/
theorem powerComposesWithPeriods : Obligations.PowerComposesWithPeriods :=
  ⟨fun v c a b _ => power_power v c a b, fun _ n hv => power_constA_eq_self_iff hv n,
    fun _ n hv => power_constQ_eq_self_iff hv n, fun _ n hv => power_constR_eq_self_iff hv n,
    fun v => ⟨power_255_constA v, power_255_constQ v, power_51_constR v⟩,
    fun _ hc => Finite.injective_iff_bijective.1 (mulByConst_injective hc)⟩

/-- Settles O23: the two maps are `mulAlpha` and `divAlpha`. -/
theorem feedbackWordMapsAreInverse : Obligations.FeedbackWordMapsAreInverse :=
  fun w => ⟨divAlpha_mulAlpha w, mulAlpha_divAlpha w⟩

/-- Settles O17: by the two cases of the high bit, read as numbers. -/
theorem mulByConstDoublesAndReduces : Obligations.MulByConstDoublesAndReduces :=
  fun v c => ⟨fun hlt => mulByConst_toNat_of_lt hlt c, fun hle => mulByConst_toNat_of_le hle c, rfl,
    mulByConst_zero_right v⟩

/-- Settles O19: the lanes as an OR of shifted bytes; the values of the rule are evaluated. -/
theorem expandWordPacksFourPowers : Obligations.ExpandWordPacksFourPowers :=
  ⟨fun _ => lanes_eq_or _ _ _ _, by decide +kernel⟩

/-- Settles O20: the lanes as an OR of shifted bytes; the values of the rule are evaluated. -/
theorem contractWordPacksFourPowers : Obligations.ContractWordPacksFourPowers :=
  ⟨fun _ => lanes_eq_or _ _ _ _, by decide +kernel⟩

end Sys2Proof.Machine
end

section
/-! The lane-mixing step (R134, R139): in lane form, with `u(b) = mulByConst(b, c) ⊕ b` and `S` the XOR of the four lanes,
lane `i` of the result is `u(t_i) ⊕ S`. The XOR of the result's lanes is then `u(S)`, so where `u` is injective the result
gives back `S` and with it each lane. -/

namespace Sys2Proof.Machine

/-! ### Lanes: equality and XOR -/

theorem lanes_inj {a b c d a' b' c' d' : Byte} :
    lanes a b c d = lanes a' b' c' d' ↔ a = a' ∧ b = b' ∧ c = c' ∧ d = d' := by
  refine ⟨fun h => ⟨?_, ?_, ?_, ?_⟩, by rintro ⟨rfl, rfl, rfl, rfl⟩; rfl⟩
  · simpa only [lane0_lanes] using congrArg lane0 h
  · simpa only [lane1_lanes] using congrArg lane1 h
  · simpa only [lane2_lanes] using congrArg lane2 h
  · simpa only [lane3_lanes] using congrArg lane3 h

theorem lane0_xor (v w : Word) : lane0 (v ^^^ w) = lane0 v ^^^ lane0 w := BitVec.extractLsb'_xor

theorem lane1_xor (v w : Word) : lane1 (v ^^^ w) = lane1 v ^^^ lane1 w := BitVec.extractLsb'_xor

theorem lane2_xor (v w : Word) : lane2 (v ^^^ w) = lane2 v ^^^ lane2 w := BitVec.extractLsb'_xor

theorem lane3_xor (v w : Word) : lane3 (v ^^^ w) = lane3 v ^^^ lane3 w := BitVec.extractLsb'_xor

/-- `S` of R139: the XOR of the four lanes of a word. -/
def laneSum (w : Word) : Byte := lane0 w ^^^ lane1 w ^^^ lane2 w ^^^ lane3 w

theorem laneSum_lanes (a b c d : Byte) : laneSum (lanes a b c d) = a ^^^ b ^^^ c ^^^ d := by
  rw [laneSum, lane0_lanes, lane1_lanes, lane2_lanes, lane3_lanes]

theorem laneSum_xor (v w : Word) : laneSum (v ^^^ w) = laneSum v ^^^ laneSum w := by
  simp only [laneSum, lane0_xor, lane1_xor, lane2_xor, lane3_xor]
  ac_rfl

/-! ### The byte map of the step -/

/-- `u` of R139: a byte doubled, XORed with itself. -/
def doubleXorSelf (c b : Byte) : Byte := mulByConst b c ^^^ b

theorem doubleXorSelf_xorLinear (c : Byte) : XorLinear (doubleXorSelf c) := fun a b => by
  simp only [doubleXorSelf, mulByConst_xor]
  ac_rfl

/-- By linearity: the only byte that `u` sends to 0 is 0 when doubling has no other fixed point. -/
theorem doubleXorSelf_injective {c : Byte} (hfix : ∀ b, power b 1 c = b → b = 0) :
    Function.Injective (doubleXorSelf c) := by
  intro a b hab
  have hzero : doubleXorSelf c (a ^^^ b) = 0 :=
    (doubleXorSelf_xorLinear c a b).trans (BitVec.xor_eq_zero_iff.2 hab)
  exact BitVec.xor_eq_zero_iff.1 (hfix _ (BitVec.xor_eq_zero_iff.1 hzero))

/-- Doubling with 0x1B has period 51 on every non-zero byte, so it fixes none of them. -/
theorem doubleXorSelf_constR_injective : Function.Injective (doubleXorSelf constR) := by
  refine doubleXorSelf_injective fun b hb => by_contra fun hne => ?_
  have hdvd : 51 ∣ 1 := (power_constR_eq_self_iff hne 1).1 hb
  omega

/-- Doubling with 0x69 has period 255 on every non-zero byte, so it fixes none of them. -/
theorem doubleXorSelf_constQ_injective : Function.Injective (doubleXorSelf constQ) := by
  refine doubleXorSelf_injective fun b hb => by_contra fun hne => ?_
  have hdvd : 255 ∣ 1 := (power_constQ_eq_self_iff hne 1).1 hb
  omega

/-! ### The lane formula and what follows from it -/

/-- R134: a doubled lane and the three others are `u` of that lane and all four. -/
theorem mulByConst_xor_others (c b0 b1 b2 b3 : Byte) :
    mulByConst b0 c ^^^ b1 ^^^ b2 ^^^ b3 = doubleXorSelf c b0 ^^^ (b0 ^^^ b1 ^^^ b2 ^^^ b3) := by
  simp only [doubleXorSelf, BitVec.xor_assoc, xor_cancel_left]

theorem mixLanes_eq (c : Byte) (t : Word) :
    mixLanes c t =
      lanes (doubleXorSelf c (lane0 t) ^^^ laneSum t) (doubleXorSelf c (lane1 t) ^^^ laneSum t)
        (doubleXorSelf c (lane2 t) ^^^ laneSum t) (doubleXorSelf c (lane3 t) ^^^ laneSum t) := by
  simp only [mixLanes, mulByConst_xor_others, laneSum]
  congr 2 <;> ac_rfl

theorem mixLanes_lanes (c t0 t1 t2 t3 : Byte) :
    mixLanes c (lanes t0 t1 t2 t3) =
      lanes (mulByConst t0 c ^^^ t1 ^^^ t2 ^^^ t3) (mulByConst t1 c ^^^ t2 ^^^ t3 ^^^ t0)
        (mulByConst t2 c ^^^ t3 ^^^ t0 ^^^ t1) (mulByConst t3 c ^^^ t0 ^^^ t1 ^^^ t2) := by
  rw [mixLanes, lane0_lanes, lane1_lanes, lane2_lanes, lane3_lanes]

theorem mixLanes_equal_lanes (c t : Byte) :
    mixLanes c (lanes t t t t) =
      lanes (doubleXorSelf c t) (doubleXorSelf c t) (doubleXorSelf c t) (doubleXorSelf c t) := by
  rw [mixLanes_lanes, BitVec.xor_assoc, BitVec.xor_self, BitVec.xor_zero, doubleXorSelf]

/-- Four copies of `S` cancel, and `u` is linear. -/
theorem laneSum_mixLanes (c : Byte) (t : Word) : laneSum (mixLanes c t) = doubleXorSelf c (laneSum t) := by
  have hu := doubleXorSelf_xorLinear c
  calc laneSum (mixLanes c t)
      = (doubleXorSelf c (lane0 t) ^^^ doubleXorSelf c (lane1 t) ^^^ doubleXorSelf c (lane2 t) ^^^
          doubleXorSelf c (lane3 t)) ^^^ (laneSum t ^^^ (laneSum t ^^^ (laneSum t ^^^ laneSum t))) := by
        rw [mixLanes_eq, laneSum_lanes]
        ac_rfl
    _ = doubleXorSelf c (laneSum t) := by
        rw [xor_cancel_left, BitVec.xor_self, BitVec.xor_zero, laneSum, hu, hu, hu]

theorem mixLanes_xor (c : Byte) (a b : Word) : mixLanes c (a ^^^ b) = mixLanes c a ^^^ mixLanes c b := by
  have hlane (x y : Byte) : doubleXorSelf c (x ^^^ y) ^^^ laneSum (a ^^^ b) =
      (doubleXorSelf c x ^^^ laneSum a) ^^^ (doubleXorSelf c y ^^^ laneSum b) := by
    rw [doubleXorSelf_xorLinear, laneSum_xor]
    ac_rfl
  simp only [mixLanes_eq, lanes_xor_lanes, lane0_xor, lane1_xor, lane2_xor, lane3_xor, hlane]

/-- The XOR of the result's lanes gives back `S`, and then each lane of the result its lane of the operand. -/
theorem mixLanes_injective {c : Byte} (hu : Function.Injective (doubleXorSelf c)) :
    Function.Injective (mixLanes c) := by
  intro a b hab
  have hsum : laneSum a = laneSum b := by
    have h := congrArg laneSum hab
    rw [laneSum_mixLanes, laneSum_mixLanes] at h
    exact hu h
  rw [mixLanes_eq, mixLanes_eq, hsum, lanes_inj] at hab
  simp only [BitVec.xor_left_inj, hu.eq_iff] at hab
  obtain ⟨h0, h1, h2, h3⟩ := hab
  exact word_ext_lanes h0 h1 h2 h3

/-! ### The substitution step -/

theorem substLanes_lanes (box : Byte → Byte) (a b c d : Byte) :
    substLanes box (lanes a b c d) = lanes (box a) (box b) (box c) (box d) := by
  rw [substLanes, lane0_lanes, lane1_lanes, lane2_lanes, lane3_lanes]

theorem substLanes_injective_iff (box : Byte → Byte) :
    Function.Injective (substLanes box) ↔ Function.Injective box := by
  refine ⟨fun h a b hab => ?_, fun h v w hvw => ?_⟩
  · have hword : lanes a a a a = lanes b b b b := h (by rw [substLanes_lanes, substLanes_lanes, hab])
    exact (lanes_inj.1 hword).1
  · obtain ⟨h0, h1, h2, h3⟩ := lanes_inj.1 hvw
    exact word_ext_lanes (h h0) (h h1) (h h2) (h h3)

/-! ### Substitution then mixing, for any box and constant -/

/-- Mixing is a bijection and can be taken off; substitution is a bijection exactly when the box is. -/
theorem mixLanes_comp_substLanes_bijective_iff {c : Byte} (hu : Function.Injective (doubleXorSelf c))
    (box : Byte → Byte) : Function.Bijective (mixLanes c ∘ substLanes box) ↔ Function.Bijective box := by
  rw [Function.Bijective.of_comp_iff' (Finite.injective_iff_bijective.1 (mixLanes_injective hu)),
    ← Finite.injective_iff_bijective, substLanes_injective_iff, Finite.injective_iff_bijective]

theorem mixLanes_substLanes_eq_or (c : Byte) (box : Byte → Byte) (w : Word) :
    mixLanes c (substLanes box w) =
      let t0 := box (lane0 w)
      let t1 := box (lane1 w)
      let t2 := box (lane2 w)
      let t3 := box (lane3 w)
      ((mulByConst t0 c ^^^ t1 ^^^ t2 ^^^ t3).setWidth 32 <<< 24) |||
        ((mulByConst t1 c ^^^ t2 ^^^ t3 ^^^ t0).setWidth 32 <<< 16) |||
        ((mulByConst t2 c ^^^ t3 ^^^ t0 ^^^ t1).setWidth 32 <<< 8) |||
        (mulByConst t3 c ^^^ t0 ^^^ t1 ^^^ t2).setWidth 32 := by
  rw [substLanes, mixLanes_lanes, lanes_eq_or]

theorem mixLanes_substLanes_equal_lanes (c : Byte) (box : Byte → Byte) (b : Byte) :
    mixLanes c (substLanes box (lanes b b b b)) =
      let r := doubleXorSelf c (box b)
      lanes r r r r := by
  rw [substLanes_lanes, mixLanes_equal_lanes]

end Sys2Proof.Machine
end

section
/-! The statements about the boxes and the word transforms (spec/41_boxes.md). -/

namespace Sys2Proof.Machine

/-- What O26 says of one constant, from the injectivity of its `u`. -/
theorem mixLanes_linear_bijective {c : Byte} (hu : Function.Injective (doubleXorSelf c)) :
    (∀ a b : Word, mixLanes c (a ^^^ b) = mixLanes c a ^^^ mixLanes c b) ∧
    Function.Bijective (mixLanes c) ∧ Function.Bijective (doubleXorSelf c) ∧
    ∀ t0 t1 t2 t3 : Byte,
      let S := t0 ^^^ t1 ^^^ t2 ^^^ t3
      let u := doubleXorSelf c
      mixLanes c (lanes t0 t1 t2 t3) = lanes (u t0 ^^^ S) (u t1 ^^^ S) (u t2 ^^^ S) (u t3 ^^^ S) ∧
      (u t0 ^^^ S) ^^^ (u t1 ^^^ S) ^^^ (u t2 ^^^ S) ^^^ (u t3 ^^^ S) = u S := by
  refine ⟨mixLanes_xor c, Finite.injective_iff_bijective.1 (mixLanes_injective hu),
    Finite.injective_iff_bijective.1 hu, fun t0 t1 t2 t3 => ?_⟩
  have hmix := mixLanes_eq c (lanes t0 t1 t2 t3)
  have hsum := laneSum_mixLanes c (lanes t0 t1 t2 t3)
  rw [hmix] at hsum
  simp only [lane0_lanes, lane1_lanes, lane2_lanes, lane3_lanes, laneSum_lanes] at hmix hsum
  exact ⟨hmix, hsum⟩

/-- Settles O26: `u` is injective for each of the two constants, and the rest follows from that for any constant. -/
theorem laneMixingIsALinearBijection : Obligations.LaneMixingIsALinearBijection := by
  refine ⟨fun c hc => ?_, fun T => ⟨?_, ?_⟩⟩
  · obtain rfl | rfl := hc
    · exact mixLanes_linear_bijective doubleXorSelf_constR_injective
    · exact mixLanes_linear_bijective doubleXorSelf_constQ_injective
  · exact mixLanes_comp_substLanes_bijective_iff doubleXorSelf_constR_injective T.r
  · exact mixLanes_comp_substLanes_bijective_iff doubleXorSelf_constQ_injective T.q

/-- Settles O24: the lane form at `TABLE_R` and 0x1B. -/
theorem wordTransform1MixesFourLanes : Obligations.WordTransform1MixesFourLanes :=
  fun T w => ⟨mixLanes_substLanes_eq_or constR T.r w, mixLanes_substLanes_equal_lanes constR T.r⟩

/-- Settles O25: the lane form at `TABLE_Q` and 0x69. -/
theorem wordTransform2MixesFourLanes : Obligations.WordTransform2MixesFourLanes :=
  fun T w => ⟨mixLanes_substLanes_eq_or constQ T.q w, mixLanes_substLanes_equal_lanes constQ T.q⟩

end Sys2Proof.Machine
end

section
/-! The statement about the finite-state machine (spec/42_fsm.md). -/

namespace Sys2Proof.Machine

/-- The three registers are updated together from their old values, and every other item of the state is kept. -/
theorem fsmClock_state (T : Tables) (s : State) :
    (fsmClock T s).2 =
      { s with r1 := fsmNextR1 s, r2 := wordTransform1 T s.r1, r3 := wordTransform2 T s.r2 } :=
  State.ext (fsmClock_cells T s) (fsmClock_r1 T s) (fsmClock_r2 T s) (fsmClock_r3 T s) (fsmClock_phase T s)
    (fsmClock_cnt T s) (fsmClock_keyBuf T s) (fsmClock_ivBuf T s) (fsmClock_klen T s) (fsmClock_ivlen T s)
    (fsmClock_pending T s) (fsmClock_response T s)

/-- Settles O27: the output and the state by their lemmas; `fsmOutput` and `fsmNextR1` are the formulas of R150. -/
theorem fsmClockUpdatesTogether : Obligations.FsmClockUpdatesTogether :=
  fun T s => Prod.ext (fsmClock_output T s) (fsmClock_state T s)

end Sys2Proof.Machine
end

section
/-! `LFSR.clock` (R160 to R164): the cells are read through `cellAt`, the feedback word is linear in keystream mode, and
it gives back the old `s[0]` because the cells it takes beside it are kept by the shift. -/

namespace Sys2Proof.Machine

/-! ### Cells by index -/

theorem cells_ext_cellAt {a b : Cells} (h : ∀ i, cellAt a i = cellAt b i) : a = b :=
  Cells.ext (h 0) (h 1) (h 2) (h 3) (h 4) (h 5) (h 6) (h 7) (h 8) (h 9) (h 10) (h 11) (h 12) (h 13) (h 14) (h 15)

theorem finite_cells : Finite Cells :=
  Finite.of_injective cellAt fun _ _ h => cells_ext_cellAt (congrFun h)

/-! ### The shift -/

theorem cellAt_shiftCells_castSucc (v : Word) (c : Cells) (i : Fin 15) :
    cellAt (shiftCells v c) i.castSucc = cellAt c i.succ := by
  fin_cases i <;> rfl

theorem cellAt_shiftCells_last (v : Word) (c : Cells) : cellAt (shiftCells v c) 15 = v := rfl

theorem shiftCells_xorCells (v w : Word) (a b : Cells) :
    shiftCells (v ^^^ w) (xorCells a b) = xorCells (shiftCells v a) (shiftCells w b) := rfl

/-! ### The feedback word -/

theorem mulAlpha_xor (v w : Word) : mulAlpha (v ^^^ w) = mulAlpha v ^^^ mulAlpha w := by
  simp only [mulAlpha, BitVec.shiftLeft_xor_distrib, lane0_xor, expandWord_xorLinear _ _]
  ac_rfl

theorem divAlpha_xor (v w : Word) : divAlpha (v ^^^ w) = divAlpha v ^^^ divAlpha w := by
  simp only [divAlpha, BitVec.ushiftRight_xor_distrib, lane3_xor, contractWord_xorLinear _ _]
  ac_rfl

theorem mulAlpha_injective : Function.Injective mulAlpha :=
  Function.LeftInverse.injective divAlpha_mulAlpha

/-- The one place where the mode enters (R162): `F` is a last term in initialization mode only. -/
theorem lfsrFeedback_eq_ite (F : Word) (mode : LfsrMode) (c : Cells) :
    lfsrFeedback F mode c =
      if mode = .initialization then lfsrFeedback 0 .keystream c ^^^ F else lfsrFeedback 0 .keystream c := by
  cases mode <;> rfl

/-- The five terms of R160, in its order. -/
theorem lfsrFeedback_keystream (F : Word) (c : Cells) :
    lfsrFeedback F .keystream c =
      (c.s0 <<< 8) ^^^ expandWord (lane0 c.s0) ^^^ c.s2 ^^^ (c.s11 >>> 8) ^^^ contractWord (lane3 c.s11) :=
  (BitVec.xor_assoc _ _ _).symm

theorem lfsrFeedback_keystream_xorCells (F : Word) (a b : Cells) :
    lfsrFeedback F .keystream (xorCells a b) = lfsrFeedback F .keystream a ^^^ lfsrFeedback F .keystream b := by
  simp only [lfsrFeedback, xorCells, mulAlpha_xor, divAlpha_xor]
  ac_rfl

/-- With `s[2]` and `s[11]` known, the feedback word gives back `s[0]` (R164). -/
theorem s0_eq_of_lfsrFeedback_eq {F : Word} {mode : LfsrMode} {a b : Cells} (h2 : a.s2 = b.s2) (h11 : a.s11 = b.s11)
    (h : lfsrFeedback F mode a = lfsrFeedback F mode b) : a.s0 = b.s0 := by
  apply mulAlpha_injective
  cases mode <;> simpa only [lfsrFeedback, h2, h11, BitVec.xor_left_inj] using h

/-! ### `LFSR.clock` on the cells -/

theorem cellAt_clockCells_castSucc (F : Word) (mode : LfsrMode) (c : Cells) (i : Fin 15) :
    cellAt (clockCells F mode c) i.castSucc = cellAt c i.succ :=
  cellAt_shiftCells_castSucc _ c i

theorem cellAt_clockCells_last (F : Word) (mode : LfsrMode) (c : Cells) :
    cellAt (clockCells F mode c) 15 = lfsrFeedback F mode c :=
  cellAt_shiftCells_last _ c

/-- R162: in keystream mode the output of the FSM is not read. -/
theorem clockCells_keystream_eq (F F' : Word) (c : Cells) : clockCells F .keystream c = clockCells F' .keystream c := rfl

theorem clockCells_keystream_xorCells (F : Word) (a b : Cells) :
    clockCells F .keystream (xorCells a b) = xorCells (clockCells F .keystream a) (clockCells F .keystream b) := by
  rw [clockCells, lfsrFeedback_keystream_xorCells, shiftCells_xorCells]
  rfl

/-- Cells 1 to 15 are seen in the result, among them the `s[2]` and `s[11]` of the feedback word in its cell 15. -/
theorem clockCells_injective (F : Word) (mode : LfsrMode) : Function.Injective (clockCells F mode) := by
  intro a b hab
  have hupper (i : Fin 15) : cellAt a i.succ = cellAt b i.succ := by
    rw [← cellAt_clockCells_castSucc F mode, hab, cellAt_clockCells_castSucc]
  have hfeedback : lfsrFeedback F mode a = lfsrFeedback F mode b := by
    rw [← cellAt_clockCells_last, hab, cellAt_clockCells_last]
  have hs0 : a.s0 = b.s0 := s0_eq_of_lfsrFeedback_eq (hupper 1) (hupper 10) hfeedback
  exact cells_ext_cellAt (Fin.cases hs0 hupper)

theorem clockCells_bijective (F : Word) (mode : LfsrMode) : Function.Bijective (clockCells F mode) :=
  have := finite_cells
  Finite.injective_iff_bijective.1 (clockCells_injective F mode)

/-- The frame of `LFSR.clock`: with the old cells put back, the state is the old one. -/
theorem lfsrClock_restore_cells (F : Word) (mode : LfsrMode) (s : State) :
    { lfsrClock F mode s with cells := s.cells } = s := rfl

/-! ### The statements -/

/-- Settles O29: the feedback word is linear and the shift moves words only; the cells kept by the shift and the
feedback word determine the old cells. -/
theorem lfsrClockIsALinearBijection : Obligations.LfsrClockIsALinearBijection :=
  ⟨clockCells_keystream_xorCells, clockCells_keystream_eq, clockCells_bijective⟩

/-- Settles O28: the cells by index, with the feedback word as its five terms and `F`; the other fields are kept. -/
theorem lfsrClockShiftsAndFeedsBack : Obligations.LfsrClockShiftsAndFeedsBack := by
  intro F mode s v
  have hv : lfsrFeedback 0 .keystream s.cells = v := lfsrFeedback_keystream 0 s.cells
  refine ⟨cellAt_clockCells_castSucc F mode s.cells, ?_, lfsrClock_restore_cells F mode s⟩
  rw [lfsrClock_cells, cellAt_clockCells_last, lfsrFeedback_eq_ite, hv]

end Sys2Proof.Machine
end

section
/-! What a command shows: which parts of the result follow from `STATUS` alone (R91, R204), and which code each command
answers (R176, R220 to R223). -/

namespace Sys2Proof.Machine

/-! ### Equal `STATUS` is equality of its four items, and every state operation keeps it -/

theorem phaseCode_injective : Function.Injective phaseCode := by
  intro p q
  cases p <;> cases q <;> simp [phaseCode]

theorem status_eq_iff {s s' : State} :
    s.status = s'.status ↔ s.phase = s'.phase ∧ s.cnt = s'.cnt ∧ s.klen = s'.klen ∧ s.ivlen = s'.ivlen := by
  constructor
  · intro h
    refine ⟨phaseCode_injective ?_, ?_, ?_, ?_⟩
    · rw [← status_phase, ← status_phase, h]
    · rw [← status_cnt, ← status_cnt, h]
    · rw [← status_klen, ← status_klen, h]
    · rw [← status_ivlen, ← status_ivlen, h]
  · rintro ⟨hphase, hcnt, hklen, hivlen⟩
    simp only [State.status, hphase, hcnt, hklen, hivlen]

theorem status_clearState (s s' : State) : (clearState s).status = (clearState s').status := rfl

theorem status_loadSession (s s' : State) : (loadSession s).status = (loadSession s').status := rfl

section
variable {s s' : State} (h : s.status = s'.status)
include h

theorem lengthsValid_iff_of_status_eq : lengthsValid s ↔ lengthsValid s' := by
  obtain ⟨-, -, hklen, hivlen⟩ := status_eq_iff.1 h
  rw [lengthsValid, lengthsValid, hklen, hivlen]

theorem phase_eq_of_status_eq : s.phase = s'.phase := (status_eq_iff.1 h).1

theorem status_pushKey_eq (word : Word) :
    ({ s with keyBuf := pushWord s.keyBuf s.klen word, klen := pushLen s.klen } : State).status =
      ({ s' with keyBuf := pushWord s'.keyBuf s'.klen word, klen := pushLen s'.klen } : State).status := by
  obtain ⟨hphase, hcnt, hklen, hivlen⟩ := status_eq_iff.1 h
  exact status_eq_iff.2 ⟨hphase, hcnt, congrArg pushLen hklen, hivlen⟩

theorem status_pushIv_eq (word : Word) :
    ({ s with ivBuf := pushWord s.ivBuf s.ivlen word, ivlen := pushLen s.ivlen } : State).status =
      ({ s' with ivBuf := pushWord s'.ivBuf s'.ivlen word, ivlen := pushLen s'.ivlen } : State).status := by
  obtain ⟨hphase, hcnt, hklen, hivlen⟩ := status_eq_iff.1 h
  exact status_eq_iff.2 ⟨hphase, hcnt, hklen, congrArg pushLen hivlen⟩

theorem status_initClock_eq (T : Tables) : (initClock T s).status = (initClock T s').status := by
  obtain ⟨hphase, hcnt, hklen, hivlen⟩ := status_eq_iff.1 h
  refine status_eq_iff.2 ⟨?_, ?_, hklen, hivlen⟩
  · rw [initClock_phase, initClock_phase, hphase, hcnt]
  · rw [initClock_cnt, initClock_cnt, hcnt]

theorem status_genClock_eq (T : Tables) : (genClock T s).status = (genClock T s').status := by
  obtain ⟨-, hcnt, hklen, hivlen⟩ := status_eq_iff.1 h
  exact status_eq_iff.2 ⟨rfl, hcnt, hklen, hivlen⟩

end

/-- The loop of WARMUP looks at `CNT` alone to go on, so it makes the same number of turns on both states. -/
theorem status_initLoop_eq (T : Tables) (fuel : Nat) {s s' : State} (h : s.status = s'.status) :
    (initLoop T fuel s).status = (initLoop T fuel s').status := by
  induction fuel generalizing s s' with
  | zero => exact h
  | succ fuel ih =>
    obtain ⟨-, hcnt, -, -⟩ := status_eq_iff.1 h
    rw [initLoop_succ, initLoop_succ, hcnt]
    split
    · exact ih (status_initClock_eq h T)
    · exact h

theorem status_finishInit_eq (T : Tables) {s s' : State} (h : s.status = s'.status) :
    (finishInit T s).status = (finishInit T s').status := by
  rw [finishInit_eq, finishInit_eq]
  exact status_initLoop_eq T 33 h

/-! ### No command but GEN tells apart two states of equal `STATUS` -/

/-- What a host that does not look at GEN's words sees alike in the states `t` and `t'` after command `i`. -/
def AnswersAlike (i : Instr) (t t' : State) : Prop :=
  t.status = t'.status ∧ ∃ r r', t.response = some r ∧ t'.response = some r' ∧ r.resp = r'.resp ∧
    (i ≠ .gen → r.rdata = r'.rdata)

theorem AnswersAlike.respond {s s' : State} (h : s.status = s'.status) (i : Instr) (code : Resp) (data : Word) :
    AnswersAlike i (respond code data s) (respond code data s') :=
  ⟨h, _, _, rfl, rfl, rfl, fun _ => rfl⟩

/-- Each kind of result is chosen by `PHASE`, `KLEN` and `IVLEN`, and the new `STATUS` by the old one. -/
theorem ExecResult.answersAlike {i : Instr} {s s' t : State} (h : s.status = s'.status) (hr : ExecResult i s t) :
    ∃ t', ExecResult i s' t' ∧ AnswersAlike i t t' := by
  have hphase := phase_eq_of_status_eq h
  have hvalid := lengthsValid_iff_of_status_eq h
  cases hr with
  | stateless hw => exact ⟨_, .stateless hw, .respond h ..⟩
  | wrkey word => exact ⟨_, .wrkey word, .respond (status_pushKey_eq h word) ..⟩
  | wriv word => exact ⟨_, .wriv word, .respond (status_pushIv_eq h word) ..⟩
  | load hv => exact ⟨_, .load (hvalid.1 hv), .respond (status_loadSession s s') ..⟩
  | init hv =>
    exact ⟨_, .init (hvalid.1 hv), .respond (status_finishInit_eq _ (status_loadSession s s')) ..⟩
  | lengthError hi hv =>
    exact ⟨_, .lengthError hi (mt hvalid.2 hv), .respond (status_clearState s s') ..⟩
  | istep hp => exact ⟨_, .istep (hphase ▸ hp), .respond (status_initClock_eq h _) ..⟩
  | warmup hp => exact ⟨_, .warmup (hphase ▸ hp), .respond (status_finishInit_eq _ h) ..⟩
  | gen hp =>
    exact ⟨_, .gen (hphase ▸ hp), status_genClock_eq h Config.tables, _, _, rfl, rfl, rfl, fun hne => absurd rfl hne⟩
  | sequenceError hf => exact ⟨_, .sequenceError (hphase ▸ hf), .respond h ..⟩
  | discard => exact ⟨_, .discard, .respond (status_clearState s s') ..⟩

/-- Settles O58: the result of the command on the one state has its counterpart on the other. -/
theorem onlyGenRevealsTheSession : Obligations.OnlyGenRevealsTheSession := by
  intro i s s' h
  obtain ⟨t, he, hr⟩ := exec_result i s
  obtain ⟨t', hr', hstatus, r, r', hres, hres', hcode, hdata⟩ := hr.answersAlike h
  exact ⟨t, t', r, r', he, hr'.exec_eq, hstatus, hres, hres', hcode, hdata⟩

/-! ### Codes and result words -/

/-- What the rules say of the response `r` of command `i` in state `s`. -/
def AnswersByRules (i : Instr) (s : State) (r : Response) : Prop :=
  (r.resp = .errSequence ↔ seqForbidden i s.phase) ∧
  (r.resp = .errInvalidInputLength ↔ (i = .load ∨ i = .init) ∧ ¬lengthsValid s) ∧
  r.resp ≠ .errIllegalCmd ∧
  (r.resp ≠ .ok → r.rdata = 0) ∧
  (i ≠ .gen → isUnit i = false → r.rdata = 0)

/-- An OK answer is by the rules where neither error is due. -/
theorem AnswersByRules.ok {i : Instr} {s : State} {word : Word} (hseq : ¬seqForbidden i s.phase)
    (hlen : (i = .load ∨ i = .init) → lengthsValid s) (hword : i ≠ .gen → isUnit i = false → word = 0) :
    AnswersByRules i s ⟨.ok, word⟩ :=
  ⟨iff_of_false (by simp) hseq, iff_of_false (by simp) fun ⟨hi, hv⟩ => hv (hlen hi), by simp, fun h => absurd rfl h,
    hword⟩

/-- Among the commands that use no state only NOP is no unit command, and it answers 0 (R177). -/
theorem eq_zero_of_statelessWord {i : Instr} {word : Word} (hw : statelessWord i = some word)
    (hi : isUnit i = false) : word = 0 := by
  cases i with
  | nop => exact (Option.some.inj hw).symm
  | wrkey | wriv | load | istep | warmup | init | gen | discard => cases hw
  | mulc | pow | expand | contract | boxr | boxq | wt1 | wt2 => cases hi

theorem ExecResult.answersByRules {i : Instr} {s t : State} (hr : ExecResult i s t) :
    ∃ r, t.response = some r ∧ AnswersByRules i s r := by
  cases hr with
  | stateless hw =>
    obtain ⟨hload, histep, hwarmup, hinit, hgen, -⟩ := controller_ne_of_statelessWord hw
    exact ⟨_, rfl, .ok (by simp [seqForbidden, histep, hwarmup, hgen]) (by simp [hload, hinit])
      fun _ => eq_zero_of_statelessWord hw⟩
  | wrkey | wriv | discard => exact ⟨_, rfl, .ok (by simp [seqForbidden]) (by simp) fun _ _ => rfl⟩
  | load hv | init hv => exact ⟨_, rfl, .ok (by simp [seqForbidden]) (fun _ => hv) fun _ _ => rfl⟩
  | istep hp | warmup hp => exact ⟨_, rfl, .ok (by simp [seqForbidden, hp]) (by simp) fun _ _ => rfl⟩
  | gen hp =>
    exact ⟨_, rfl, .ok (fun hf => (seqForbidden_gen_iff _).1 hf hp) (by simp) fun hne => absurd rfl hne⟩
  | lengthError hi hv =>
    have hseq : ¬seqForbidden i s.phase := by obtain rfl | rfl := hi <;> simp [seqForbidden]
    exact ⟨_, rfl, by simpa using hseq, iff_of_true rfl ⟨hi, hv⟩, by simp, fun _ => rfl, fun _ _ => rfl⟩
  | sequenceError hf =>
    have hi : ¬(i = .load ∨ i = .init) := by
      rintro (rfl | rfl) <;> simp [seqForbidden] at hf
    exact ⟨_, rfl, iff_of_true rfl hf, by simp [hi], by simp, fun _ => rfl, fun _ _ => rfl⟩

/-- Settles O49: by the kinds of result. -/
theorem eachCommandAnswersTheCodeItsRulesName : Obligations.EachCommandAnswersTheCodeItsRulesName := by
  intro i s
  obtain ⟨t, he, hr⟩ := exec_result i s
  obtain ⟨r, hres, hrules⟩ := hr.answersByRules
  exact ⟨t, r, he, hres, hrules⟩

/-! ### Every step completes -/

/-- No command gives or takes an event at the ports. -/
theorem ExecResult.pending_eq {i : Instr} {s t : State} (hr : ExecResult i s t) : t.pending = s.pending := by
  cases hr with
  | stateless | wrkey | wriv | load | lengthError | istep | gen | sequenceError | discard => rfl
  | init =>
    obtain ⟨-, -, -, -, hpend, -⟩ := finishInit_frame Config.tables (loadSession s)
    exact hpend
  | warmup =>
    obtain ⟨-, -, -, -, hpend, -⟩ := finishInit_frame Config.tables s
    exact hpend

/-- Settles O11: the four kinds of step; a command or an illegal word leaves a response and the later events. -/
theorem everyStepCompletes : Obligations.EveryStepCompletes := by
  intro s
  obtain ⟨hp, he⟩ | ⟨rest, hp, he⟩ | ⟨cw, rest, i, hp, -, he⟩ | ⟨cw, rest, e, hp, -, he⟩ := step_cases s
  · exact ⟨_, he, by simp [hp]⟩
  · exact ⟨_, he, by simp [hp]⟩
  · obtain ⟨t, ht, hr⟩ := exec_result i { s with pending := rest }
    obtain ⟨r, hres, -⟩ := hr.answersByRules
    refine ⟨t, he.trans ht, fun cw' rest' hp' => ?_⟩
    obtain ⟨-, rfl⟩ : cw = cw' ∧ rest = rest' := by simpa [hp] using hp'
    exact ⟨hr.pending_eq, r, hres⟩
  · refine ⟨_, he, fun cw' rest' hp' => ?_⟩
    obtain ⟨-, rfl⟩ : cw = cw' ∧ rest = rest' := by simpa [hp] using hp'
    exact ⟨rfl, _, rfl⟩

/-- Settles O6: the step's equation for a command word. -/
theorem stepRunsTheDecodedCommand : Obligations.StepRunsTheDecodedCommand :=
  fun _ _ _ _ hp hd => step_command hp hd

end Sys2Proof.Machine
end

section
/-! The encodings of the commands by operand format (R83), and the state operations in the form in which the statements
about single commands write them. -/

namespace Sys2Proof.Machine

/-! ### Encodings -/

/-- The word made of a command's opcode and any operand decodes to that command's row; the operand is read by the row's
format. -/
theorem decode_opcodeOf_append (i : Instr) (operand : Word) :
    decode (opcodeOf i ++ operand) = .ok (readOperands (opcodeOf i ++ operand) i) :=
  decode_of_opcode (opcodeField_append _ _)

/-- Format W: `hread` says that the row reads the word field. -/
theorem decode_formatW {mk : Word → Instr} (hread : ∀ cw, readOperands cw (mk 0) = mk (wordField cw)) (operand : Word) :
    decode (opcodeOf (mk 0) ++ operand) = .ok (mk operand) := by
  rw [decode_opcodeOf_append, hread, wordField_append]

/-- Format B: `hread` says that the row reads the byte field. -/
theorem decode_formatB {mk : Byte → Instr} (hread : ∀ cw, readOperands cw (mk 0) = mk (byteField cw)) (operand : Word) :
    decode (opcodeOf (mk 0) ++ operand) = .ok (mk (operand.extractLsb' 0 8)) := by
  rw [decode_opcodeOf_append, hread, byteField_append]

/-- Format M. -/
theorem decode_mulc (operand : Word) : decode (0x10#8 ++ operand) =
    .ok (.mulc (operand.extractLsb' 0 8) (operand.extractLsb' 8 8)) := by
  have hd := decode_opcodeOf_append (.mulc 0 0) operand
  rwa [readOperands, valueField_append, constantField_append] at hd

/-- Format P. -/
theorem decode_pow (operand : Word) : decode (0x11#8 ++ operand) =
    .ok (.pow (operand.extractLsb' 0 8) (operand.extractLsb' 16 8).toNat (operand.extractLsb' 8 8)) := by
  have hd := decode_opcodeOf_append (.pow 0 0 0) operand
  rwa [readOperands, valueField_append, exponentField_append, constantField_append] at hd

/-! ### Pushing -/

/-- The four words after a push, each by its index. -/
theorem pushWord_eq (b : WordBuf) (len : BitVec 3) (w : Word) :
    pushWord b len w = ⟨if len = 0 then w else b.w0, if len = 1 then w else b.w1, if len = 2 then w else b.w2,
      if len = 3 then w else b.w3⟩ := by
  have hindex (k : BitVec 3) : len = k ↔ len.toNat = k.toNat := BitVec.toNat_inj.symm
  simp only [hindex]
  exact WordBuf.ext (bufAt_pushWord b len w 0) (bufAt_pushWord b len w 1) (bufAt_pushWord b len w 2)
    (bufAt_pushWord b len w 3)

theorem pushLen_eq (len : BitVec 3) : pushLen len = if len.toNat < 5 then len + 1 else len := rfl

/-! ### Clearing -/

theorem SameState.respond {s t : State} (h : SameState s t) (code : Resp) (data : Word) :
    SameState (respond code data s) t := h

theorem sameState_clearState (s : State) : SameState (clearState s) State.reset :=
  ⟨rfl, rfl, rfl, rfl, rfl, rfl, rfl, rfl, rfl, rfl⟩

/-! ### Cipher clocks -/

/-- The feedback word of the initialization clock numbered `CNT + 1` (R182): `F` enters for the first 32. -/
theorem lfsrFeedback_initMode (F : Word) (cnt : BitVec 6) (c : Cells) :
    lfsrFeedback F (initMode cnt) c =
      if cnt.toNat < 32 then lfsrFeedback 0 .keystream c ^^^ F else lfsrFeedback 0 .keystream c := by
  rw [lfsrFeedback_eq_ite]
  refine if_congr ?_ rfl rfl
  unfold initMode
  split
  · next hlt => exact iff_of_true rfl hlt
  · next hge => exact iff_of_false (by simp) hge

/-- One initialization clock, with the cells it writes in full. -/
theorem initClock_eq (T : Tables) (s : State) :
    initClock T s = { s with
      cells := shiftCells (if s.cnt.toNat < 32 then lfsrFeedback 0 .keystream s.cells ^^^ fsmOutput s
        else lfsrFeedback 0 .keystream s.cells) s.cells
      r1 := fsmNextR1 s
      r2 := wordTransform1 T s.r1
      r3 := wordTransform2 T s.r2
      cnt := s.cnt + 1
      phase := if s.cnt + 1 = 33 then .ready else s.phase } := by
  rw [← lfsrFeedback_initMode]
  rfl

theorem genClock_eq (T : Tables) (s : State) :
    genClock T s = { s with
      cells := shiftCells (lfsrFeedback 0 .keystream s.cells) s.cells
      r1 := fsmNextR1 s
      r2 := wordTransform1 T s.r1
      r3 := wordTransform2 T s.r2
      phase := .generating } := rfl

end Sys2Proof.Machine
end

section
/-! The statements about single commands: encoding, result and frame (R177 to R198). -/

namespace Sys2Proof.Machine

/-! ### Controller commands -/

/-- Settles O30: NOP uses no state and answers 0. -/
theorem nopAnswersOk : Obligations.NopAnswersOk :=
  ⟨decode_opcodeOf_append .nop, exec_stateless (i := .nop) rfl⟩

/-- Settles O31: the push by its four words and its count. -/
theorem wrkeyPushesOneWord : Obligations.WrkeyPushesOneWord := by
  refine ⟨decode_formatW (mk := .wrkey) fun _ => rfl, fun s word => ?_⟩
  rw [(ExecResult.wrkey word).exec_eq, pushWord_eq, pushLen_eq]
  rfl

/-- Settles O32: as O31; the two pushes write different items. -/
theorem wrivPushesOneWord : Obligations.WrivPushesOneWord := by
  refine ⟨decode_formatW (mk := .wriv) fun _ => rfl, fun s word => ?_, fun s k v => rfl⟩
  rw [(ExecResult.wriv word).exec_eq, pushWord_eq, pushLen_eq]
  rfl

/-- Settles O33: the two results of LOAD. -/
theorem loadFillsTheCells : Obligations.LoadFillsTheCells :=
  ⟨decode_opcodeOf_append .load, fun _ hk hi => (ExecResult.load ⟨hk, hi⟩).exec_eq, fun s hv =>
    ⟨_, (ExecResult.lengthError (.inl rfl) hv).exec_eq, (sameState_clearState s).respond _ _, rfl, rfl⟩⟩

/-- Settles O34: the clock in full, with the feedback word as its five terms. -/
theorem istepRunsOneCipherClock : Obligations.IstepRunsOneCipherClock := by
  refine ⟨decode_opcodeOf_append .istep, ?_, fun s hp => (ExecResult.sequenceError (.inl ⟨.inl rfl, hp⟩)).exec_eq⟩
  intro s hp F v
  have hv : lfsrFeedback 0 .keystream s.cells = v := lfsrFeedback_keystream 0 s.cells
  rw [(ExecResult.istep hp).exec_eq, initClock_eq, hv, hp]
  rfl

/-- Settles O37: the clock in full, with the feedback word as its five terms. -/
theorem genGivesOneKeystreamWord : Obligations.GenGivesOneKeystreamWord := by
  refine ⟨decode_opcodeOf_append .gen, fun s hp => ?_,
    fun s hp => (ExecResult.sequenceError (.inr ⟨rfl, hp⟩)).exec_eq⟩
  rw [(ExecResult.gen hp).exec_eq, genClock_eq, lfsrFeedback_keystream]
  rfl

/-- Settles O38: the one result of DISCARD. -/
theorem discardClearsTheState : Obligations.DiscardClearsTheState :=
  ⟨decode_opcodeOf_append .discard,
    fun s => ⟨_, ExecResult.discard.exec_eq, (sameState_clearState s).respond _ _, rfl, rfl⟩⟩

/-! ### Unit-evaluation commands: `statelessWord` holds the result words -/

/-- Settles O39: format M, and the result word. -/
theorem mulcAnswersTheProduct : Obligations.MulcAnswersTheProduct :=
  ⟨decode_mulc, fun s value constant => exec_stateless (i := .mulc value constant) rfl s⟩

/-- Settles O40: format P, and the result word. -/
theorem powAnswersThePower : Obligations.PowAnswersThePower :=
  ⟨decode_pow, fun s value exponent constant => exec_stateless (i := .pow value exponent constant) rfl s⟩

/-- Settles O41: format B, and the result word. -/
theorem expandAnswersTheWord : Obligations.ExpandAnswersTheWord :=
  ⟨decode_formatB (mk := .expand) fun _ => rfl, fun s byte => exec_stateless (i := .expand byte) rfl s⟩

/-- Settles O42: format B, and the result word. -/
theorem contractAnswersTheWord : Obligations.ContractAnswersTheWord :=
  ⟨decode_formatB (mk := .contract) fun _ => rfl, fun s byte => exec_stateless (i := .contract byte) rfl s⟩

/-- Settles O43: format B, and the result word; `boxR` reads `TABLE_R`. -/
theorem boxrAnswersTheEntry : Obligations.BoxrAnswersTheEntry :=
  ⟨decode_formatB (mk := .boxr) fun _ => rfl, fun s byte => exec_stateless (i := .boxr byte) rfl s⟩

/-- Settles O44: format B, and the result word; `boxQ` reads `TABLE_Q`. -/
theorem boxqAnswersTheEntry : Obligations.BoxqAnswersTheEntry :=
  ⟨decode_formatB (mk := .boxq) fun _ => rfl, fun s byte => exec_stateless (i := .boxq byte) rfl s⟩

/-- Settles O45: format W, and the result word. -/
theorem wt1AnswersTheTransform : Obligations.Wt1AnswersTheTransform :=
  ⟨decode_formatW (mk := .wt1) fun _ => rfl, fun s word => exec_stateless (i := .wt1 word) rfl s⟩

/-- Settles O46: format W, and the result word. -/
theorem wt2AnswersTheTransform : Obligations.Wt2AnswersTheTransform :=
  ⟨decode_formatW (mk := .wt2) fun _ => rfl, fun s word => exec_stateless (i := .wt2 word) rfl s⟩

end Sys2Proof.Machine
end

section
/-! Sequences of commands, and the initialization as iterated clocks: ISTEPs one by one and the loop of WARMUP both
iterate `initClock`, whose first 32 turns are cipher clocks in initialization mode (R182, R183, R206). -/

namespace Sys2Proof.Machine

/-! ### Sequences of commands -/

theorem execAll_cons {i : Instr} {s t : State} (hr : ExecResult i s t) (is : List Instr) :
    execAll (i :: is) s = execAll is t := by
  rw [execAll, hr.exec_eq]

theorem execAll_singleton {i : Instr} {s t : State} (hr : ExecResult i s t) : execAll [i] s = .next t :=
  execAll_cons hr []

theorem execAll_append {is : List Instr} {s t : State} (h : execAll is s = .next t) (js : List Instr) :
    execAll (is ++ js) s = execAll js t := by
  induction is generalizing s with
  | nil =>
    obtain rfl : s = t := by simpa [execAll] using h
    rfl
  | cons i is ih =>
    obtain ⟨u, -, hr⟩ := exec_result i s
    rw [execAll_cons hr] at h
    rw [List.cons_append, execAll_cons hr, ih h]

/-- Each response takes the place of the one before. -/
theorem respond_respond (code code' : Resp) (data data' : Word) (s : State) :
    respond code data (respond code' data' s) = respond code data s := rfl

/-! ### One clock, before the last and at the last -/

theorem initClock_of_lt (T : Tables) {s : State} (hlt : s.cnt.toNat < 32) :
    initClock T s = { cipherClock T .initialization s with cnt := s.cnt + 1 } := by
  have hmode : initMode s.cnt = .initialization := if_pos hlt
  have hlast : s.cnt + 1 ≠ 33 := by bv_omega
  simp only [initClock, hmode, cipherClock_cnt, cipherClock_phase, if_neg hlast]

theorem initClock_of_last (T : Tables) {s : State} (h32 : s.cnt = 32) :
    initClock T s = { cipherClock T .keystream s with cnt := 33, phase := .ready } := by
  simp only [initClock, cipherClock_cnt, h32]
  rfl

/-! ### Clocks in a row -/

/-- While `CNT` stays at most 32, so many initialization clocks are so many cipher clocks in initialization mode. -/
theorem iterate_initClock (T : Tables) (s : State) :
    ∀ n : Nat, s.cnt.toNat + n ≤ 32 →
      (initClock T)^[n] s = { (cipherClock T .initialization)^[n] s with cnt := s.cnt + BitVec.ofNat 6 n }
  | 0, _ => by simp
  | n + 1, hle => by
    have hlt : (s.cnt + BitVec.ofNat 6 n).toNat < 32 := by
      simp only [BitVec.toNat_add, BitVec.toNat_ofNat]
      omega
    have hsucc : s.cnt + BitVec.ofNat 6 n + 1 = s.cnt + BitVec.ofNat 6 (n + 1) := by
      rw [BitVec.add_assoc, BitVec.ofNat_add n 1]
      rfl
    rw [Function.iterate_succ_apply', iterate_initClock T s n (by omega), initClock_of_lt T hlt, hsucc,
      Function.iterate_succ_apply']
    rfl

theorem iterate_cipherClock_phase (T : Tables) (mode : LfsrMode) (n : Nat) (s : State) :
    ((cipherClock T mode)^[n] s).phase = s.phase :=
  Function.Iterate.rec (fun t : State => t.phase = s.phase) (f := cipherClock T mode) rfl (fun _ hphase => hphase) n

theorem iterate_initClock_phase (T : Tables) {s : State} {n : Nat} (hle : s.cnt.toNat + n ≤ 32) :
    ((initClock T)^[n] s).phase = s.phase := by
  rw [iterate_initClock T s n hle]
  exact iterate_cipherClock_phase T _ n s

theorem iterate_initClock_cnt (T : Tables) {s : State} {n : Nat} (hle : s.cnt.toNat + n ≤ 32) :
    ((initClock T)^[n] s).cnt.toNat = s.cnt.toNat + n := by
  rw [iterate_initClock T s n hle]
  simp only [BitVec.toNat_add, BitVec.toNat_ofNat]
  omega

theorem iterate_initClock_respond (T : Tables) (code : Resp) (data : Word) (n : Nat) (s : State) :
    (initClock T)^[n] (respond code data s) = respond code data ((initClock T)^[n] s) :=
  Function.Commute.iterate_left (f := initClock T) (g := respond code data) (fun _ => rfl) n s

/-- The loop of WARMUP makes the clocks that are left. -/
theorem initLoop_eq_iterate (T : Tables) : ∀ (fuel : Nat) (s : State),
    s.cnt.toNat ≤ 33 → 33 ≤ fuel + s.cnt.toNat → initLoop T fuel s = (initClock T)^[33 - s.cnt.toNat] s
  | 0, s, hle, hfuel => by
    rw [show 33 - s.cnt.toNat = 0 by omega]
    rfl
  | fuel + 1, s, hle, hfuel => by
    rw [initLoop_succ]
    split
    · next hlt =>
      have hlt' : s.cnt.toNat < 33 := hlt
      have hcnt : (initClock T s).cnt.toNat = s.cnt.toNat + 1 := by
        rw [initClock_cnt]
        bv_omega
      rw [initLoop_eq_iterate T fuel (initClock T s) (by omega) (by omega), hcnt, ← Function.iterate_succ_apply]
      congr 2
      omega
    · next hge =>
      have hge' : ¬s.cnt.toNat < 33 := hge
      rw [show 33 - s.cnt.toNat = 0 by omega]
      rfl

theorem finishInit_eq_iterate (T : Tables) {s : State} (hle : s.cnt.toNat ≤ 33) :
    finishInit T s = (initClock T)^[33 - s.cnt.toNat] s := by
  rw [finishInit_eq, initLoop_eq_iterate T 33 s hle (by omega)]

/-- The loop does not look at the response port. -/
theorem finishInit_respond (T : Tables) (code : Resp) (data : Word) {s : State} (hle : s.cnt.toNat ≤ 33) :
    finishInit T (respond code data s) = respond code data (finishInit T s) := by
  rw [finishInit_eq_iterate T hle, ← iterate_initClock_respond]
  exact finishInit_eq_iterate T (s := respond code data s) hle

/-- Clocks taken before the loop are clocks that the loop does not take. -/
theorem finishInit_iterate_initClock (T : Tables) {s : State} {n : Nat} (hle : s.cnt.toNat + n ≤ 32) :
    finishInit T ((initClock T)^[n] s) = finishInit T s := by
  have hcnt := iterate_initClock_cnt T hle
  have hsum : 33 - (s.cnt.toNat + n) + n = 33 - s.cnt.toNat := by omega
  rw [finishInit_eq_iterate T (by omega), hcnt, ← Function.iterate_add_apply, hsum,
    finishInit_eq_iterate T (by omega)]

/-- After a load all 33 clocks are left. -/
theorem finishInit_loadSession (T : Tables) (s : State) :
    finishInit T (loadSession s) = (initClock T)^[33] (loadSession s) :=
  finishInit_eq_iterate T (Nat.zero_le 33)

theorem finishInit_loadSession_ready (T : Tables) (s : State) :
    (finishInit T (loadSession s)).phase = .ready ∧ (finishInit T (loadSession s)).cnt = 33 :=
  finishInit_ready T (loadSession s) rfl (Nat.zero_le 32)

/-! ### ISTEPs in a row -/

/-- From a state with an OK answer, ISTEPs that do not pass the 33rd clock are initialization clocks. -/
theorem execAll_replicate_istep_respond {s : State} (hp : s.phase = .initializing) :
    ∀ n : Nat, s.cnt.toNat + n ≤ 33 →
      execAll (List.replicate n .istep) (respond .ok 0 s) =
        .next (respond .ok 0 ((initClock Config.tables)^[n] s))
  | 0, _ => rfl
  | n + 1, hle => by
    have hphase : ((initClock Config.tables)^[n] s).phase = .initializing :=
      (iterate_initClock_phase _ (by omega)).trans hp
    rw [List.replicate_succ', execAll_append (execAll_replicate_istep_respond hp n (by omega)),
      Function.iterate_succ_apply']
    exact execAll_singleton (.istep hphase)

/-- The same from any state, once there is an ISTEP to answer. -/
theorem execAll_replicate_istep {s : State} (hp : s.phase = .initializing) {n : Nat} (hn : 0 < n)
    (hle : s.cnt.toNat + n ≤ 33) :
    execAll (List.replicate n .istep) s = .next (respond .ok 0 ((initClock Config.tables)^[n] s)) := by
  obtain ⟨n, rfl⟩ := Nat.exists_eq_add_one_of_ne_zero hn.ne'
  rw [← execAll_replicate_istep_respond hp (n + 1) hle, List.replicate_succ, execAll_cons (.istep hp)]
  exact (execAll_cons (s := respond .ok 0 s) (.istep hp) _).symm

/-! ### The statements about the initialization -/

/-- Settles O35: both sides are the iterated clock, and the loop's end and frame are known. -/
theorem warmupRunsTheRemainingClocks : Obligations.WarmupRunsTheRemainingClocks := by
  refine ⟨decode_opcodeOf_append .warmup, fun s hp hle => ?_,
    fun s hp => (ExecResult.sequenceError (.inl ⟨.inr rfl, hp⟩)).exec_eq⟩
  obtain ⟨hready, hcnt⟩ := finishInit_ready Config.tables s hp hle
  obtain ⟨hkey, hiv, hklen, hivlen, hpend, -⟩ := finishInit_frame Config.tables s
  refine ⟨_, (ExecResult.warmup hp).exec_eq, ?_, hready, hcnt, rfl, hkey, hiv, hklen, hivlen, hpend⟩
  rw [finishInit_eq_iterate _ (by omega)]
  exact execAll_replicate_istep hp (by omega) (by omega)

/-- Settles O36: the response between LOAD and WARMUP does not matter to the loop. -/
theorem initIsLoadThenWarmup : Obligations.InitIsLoadThenWarmup := by
  refine ⟨decode_opcodeOf_append .init, fun s hk hi => ?_, fun s hv => ?_⟩
  · obtain ⟨hready, hcnt⟩ := finishInit_loadSession_ready Config.tables s
    obtain ⟨hkey, hiv, hklen, hivlen, hpend, -⟩ := finishInit_frame Config.tables (loadSession s)
    refine ⟨_, (ExecResult.init ⟨hk, hi⟩).exec_eq, ?_, hready, hcnt, hkey, hiv, hklen, hivlen, rfl, hpend⟩
    rw [execAll_cons (.load ⟨hk, hi⟩), execAll_singleton (.warmup rfl),
      finishInit_respond (s := loadSession s) _ _ _ (Nat.zero_le 33), respond_respond]
  · have hinit := (ExecResult.lengthError (.inr rfl) hv : ExecResult .init s _).exec_eq
    have hload := (ExecResult.lengthError (.inl rfl) hv : ExecResult .load s _).exec_eq
    exact ⟨hinit.trans hload.symm, _, hinit, rfl⟩

/-- Settles O50: the clocks in a row from `CNT` = 0, and the last one by its own equation. -/
theorem thirtyTwoInitializationClocksThenOne : Obligations.ThirtyTwoInitializationClocksThenOne := by
  intro s hp h0
  have hcnt : s.cnt.toNat = 0 := by rw [h0]; rfl
  have hclocks {j : Nat} (hj : j ≤ 32) : (initClock Config.tables)^[j] s =
      { (cipherClock Config.tables .initialization)^[j] s with cnt := BitVec.ofNat 6 j } := by
    have hzero : s.cnt + BitVec.ofNat 6 j = BitVec.ofNat 6 j := by rw [h0]; exact BitVec.zero_add _
    rw [iterate_initClock _ s j (by omega), hzero]
  refine ⟨fun j h1 hj => ?_, ?_⟩
  · have hrun := execAll_replicate_istep hp h1 (show s.cnt.toNat + j ≤ 33 by omega)
    have hphase : ((initClock Config.tables)^[j] s).phase = .initializing :=
      (iterate_initClock_phase _ (by omega)).trans hp
    constructor
    · rw [hrun, hclocks hj]
      rfl
    · have hgen := execAll_singleton (.sequenceError (i := .gen) (s := respond .ok 0 _) (.inr ⟨rfl, .inr hphase⟩))
      exact ⟨_, (execAll_append hrun [.gen]).trans hgen, rfl⟩
  · rw [execAll_replicate_istep hp (by omega) (by omega), Function.iterate_succ_apply' _ 32, hclocks le_rfl]
    generalize (cipherClock Config.tables .initialization)^[32] s = u
    rw [initClock_of_last _ rfl]
    rfl

/-- Settles O51: each route is 33 initialization clocks after the load. -/
theorem bootRoutesGiveOneState : Obligations.BootRoutesGiveOneState := by
  intro s hk hi
  have hsteps {j : Nat} (hj : j ≤ 33) :
      execAll (.load :: List.replicate j .istep) s =
        .next (respond .ok 0 ((initClock Config.tables)^[j] (loadSession s))) := by
    rw [execAll_cons (.load ⟨hk, hi⟩)]
    exact execAll_replicate_istep_respond rfl j ((Nat.zero_add j).trans_le hj)
  obtain ⟨hready, -⟩ := finishInit_loadSession_ready Config.tables s
  refine ⟨_, (ExecResult.init ⟨hk, hi⟩).exec_eq, hready, fun j hj => ?_, ?_⟩
  · have hle : (loadSession s).cnt.toNat + j ≤ 32 := (Nat.zero_add j).trans_le hj
    have hcnt := iterate_initClock_cnt Config.tables hle
    have hphase : (respond .ok 0 ((initClock Config.tables)^[j] (loadSession s))).phase = .initializing :=
      iterate_initClock_phase _ hle
    rw [execAll_append (hsteps (by omega)), execAll_singleton (.warmup hphase), finishInit_respond _ _ _ (by omega),
      finishInit_iterate_initClock _ hle, respond_respond]
  · rw [hsteps le_rfl, finishInit_loadSession]

end Sys2Proof.Machine
end

section
/-! The session start of R200: pushes of any number of words, seen through the two length counters. -/

namespace Sys2Proof.Machine

theorem iterate_pushLen_zero (n : Nat) : pushLen^[n] 0 = BitVec.ofNat 3 (min n 5) := by
  induction n with
  | zero => rfl
  | succ n ih =>
    have hlen : (BitVec.ofNat 3 (min n 5)).toNat = min n 5 := by
      rw [BitVec.toNat_ofNat]
      omega
    apply BitVec.eq_of_toNat_eq
    rw [Function.iterate_succ_apply', ih, pushLen_toNat _ (by omega), hlen, BitVec.toNat_ofNat]
    omega

/-- A count capped at 5 is the four of the length test exactly when the number of words is (R178, R221). -/
theorem ofNat_min_eq_inputWords_iff (n : Nat) : BitVec.ofNat 3 (min n 5) = inputWords ↔ n = 4 := by
  rw [← BitVec.toNat_inj, BitVec.toNat_ofNat]
  change min n 5 % 8 = 4 ↔ n = 4
  omega

/-- Pushes of one kind: `len` reads the counter of that kind, `other` one that such a push leaves alone. -/
theorem execAll_map_push {mk : Word → Instr} {len other : State → BitVec 3}
    (hpush : ∀ (word : Word) (s : State),
      ∃ t, ExecResult (mk word) s t ∧ len t = pushLen (len s) ∧ other t = other s)
    (words : List Word) (s : State) :
    ∃ t, execAll (words.map mk) s = .next t ∧ len t = pushLen^[words.length] (len s) ∧ other t = other s := by
  induction words generalizing s with
  | nil => exact ⟨s, rfl, rfl, rfl⟩
  | cons word words ih =>
    obtain ⟨u, hr, hlen, hother⟩ := hpush word s
    obtain ⟨t, ht, hlen', hother'⟩ := ih u
    refine ⟨t, (execAll_cons hr _).trans ht, ?_, hother'.trans hother⟩
    rw [hlen', hlen, List.length_cons, Function.iterate_succ_apply]

/-- Key words, then IV words, from clear counters. -/
theorem execAll_wrkey_wriv {s : State} (hk : s.klen = 0) (hi : s.ivlen = 0) (key iv : List Word) :
    ∃ t, execAll (key.map .wrkey ++ iv.map .wriv) s = .next t ∧
      t.klen = BitVec.ofNat 3 (min key.length 5) ∧ t.ivlen = BitVec.ofNat 3 (min iv.length 5) := by
  obtain ⟨u, hu, huk, hui⟩ := execAll_map_push (mk := .wrkey) (len := State.klen) (other := State.ivlen)
    (fun word s => ⟨_, .wrkey word, rfl, rfl⟩) key s
  obtain ⟨t, ht, hti, htk⟩ := execAll_map_push (mk := .wriv) (len := State.ivlen) (other := State.klen)
    (fun word s => ⟨_, .wriv word, rfl, rfl⟩) iv u
  refine ⟨t, (execAll_append hu _).trans ht, ?_, ?_⟩
  · rw [htk, huk, hk, iterate_pushLen_zero]
  · rw [hti, hui, hi, iterate_pushLen_zero]

/-- Settles O52: the counters after the pushes, and the two results of INIT on them. -/
theorem initializeTakesExactlyFourWords : Obligations.InitializeTakesExactlyFourWords := by
  intro s key iv hk hi
  obtain ⟨t, ht, htk, hti⟩ := execAll_wrkey_wriv hk hi key iv
  have hvalid : lengthsValid t ↔ key.length = 4 ∧ iv.length = 4 := by
    rw [lengthsValid, htk, hti, ofNat_min_eq_inputWords_iff, ofNat_min_eq_inputWords_iff]
  refine ⟨⟨t, ht, htk, hti⟩, ?_⟩
  rw [execAll_append ht]
  split
  · next h4 =>
    obtain ⟨hready, -⟩ := finishInit_loadSession_ready Config.tables t
    exact ⟨_, execAll_singleton (.init (hvalid.2 h4)), rfl, hready⟩
  · next h4 =>
    exact ⟨_, execAll_singleton (.lengthError (.inr rfl) (mt hvalid.1 h4)), rfl,
      (sameState_clearState t).respond _ _⟩

end Sys2Proof.Machine
end

section
/-! `generate(session, n)` (R201, R202) as `n` turns of GEN's own state change, with the words read on the way. -/

namespace Sys2Proof.Machine

/-- The phases in which GEN gives a word (R176, R185). -/
def InSession (s : State) : Prop := s.phase = .ready ∨ s.phase = .generating

/-- The state that GEN leaves in a session (R185). -/
def genStep (s : State) : State := respond .ok (keystreamWord s) (genClock Config.tables s)

theorem execResult_gen {s : State} (hs : InSession s) : ExecResult .gen s (genStep s) := .gen hs

theorem rdataOf_genStep (s : State) : rdataOf (genStep s) = keystreamWord s := rfl

theorem genStep_phase (s : State) : (genStep s).phase = .generating := rfl

theorem iterate_genStep_phase (s : State) {n : Nat} (hn : 0 < n) : (genStep^[n] s).phase = .generating := by
  obtain ⟨n, rfl⟩ := Nat.exists_eq_add_one_of_ne_zero hn.ne'
  rw [Function.iterate_succ_apply', genStep_phase]

theorem InSession.iterate_genStep {s : State} (hs : InSession s) (n : Nat) : InSession (genStep^[n] s) := by
  obtain rfl | hn := Nat.eq_zero_or_pos n
  · exact hs
  · exact .inr (iterate_genStep_phase s hn)

/-- The first `n` keystream words of a session: the `k`-th is that of the state after `k` words. -/
def keystream (n : Nat) (s : State) : List Word := (List.range n).map fun k => keystreamWord (genStep^[k] s)

theorem keystream_succ (n : Nat) (s : State) : keystream (n + 1) s = keystreamWord s :: keystream n (genStep s) := by
  rw [keystream, List.range_succ_eq_map, List.map_cons, List.map_map]
  rfl

theorem keystream_add (a b : Nat) (s : State) :
    keystream (a + b) s = keystream a s ++ keystream b (genStep^[a] s) := by
  have hword (k : Nat) : keystreamWord (genStep^[a + k] s) = keystreamWord (genStep^[k] (genStep^[a] s)) := by
    rw [Nat.add_comm, Function.iterate_add_apply]
  simp only [keystream, List.range_add, List.map_append, List.map_map, Function.comp_def, hword]

theorem length_keystream (n : Nat) (s : State) : (keystream n s).length = n := by
  rw [keystream, List.length_map, List.length_range]

theorem getElem?_keystream {k n : Nat} (hk : k < n) (s : State) :
    (keystream n s)[k]? = some (keystreamWord (genStep^[k] s)) := by
  rw [keystream, List.getElem?_map, List.getElem?_range hk, Option.map_some]

/-- In a session, GENs give the keystream words and the state after so many turns. -/
theorem generate_eq (n : Nat) {s : State} (hs : InSession s) : generate n s = some (keystream n s, genStep^[n] s) := by
  induction n generalizing s with
  | zero => rfl
  | succ n ih =>
    rw [generate, (execResult_gen hs).exec_eq]
    simp only [ih (Or.inr (genStep_phase s)), rdataOf_genStep, keystream_succ, Option.map_some,
      Function.iterate_succ_apply]

/-- Settles O54: `generate` by the keystream words and the iterated turn. -/
theorem generateGivesNWords : Obligations.GenerateGivesNWords := by
  intro n s hs
  refine ⟨_, _, generate_eq n hs, length_keystream n s, iterate_genStep_phase s, ?_, fun k hk => ?_⟩
  · rintro rfl
    rfl
  · exact ⟨_, congrArg (Option.map Prod.snd) (generate_eq k hs), getElem?_keystream hk s⟩

/-- Settles O55: the keystream words of `a + b` turns are those of `a`, then those of `b` from the state reached. -/
theorem generateContinuesTheSession : Obligations.GenerateContinuesTheSession := by
  intro a b s hs
  refine ⟨_, _, _, _, generate_eq a hs, generate_eq b (InSession.iterate_genStep hs a), ?_⟩
  rw [generate_eq (a + b) hs, keystream_add, Nat.add_comm a b, Function.iterate_add_apply]

end Sys2Proof.Machine
end

section
/-! Determinism of sessions: what INIT and GEN do to the items of state does not depend on the ports. -/

namespace Sys2Proof.Machine

theorem sameState_iff {s t : State} :
    SameState s t ↔ ∃ pending response, t = { s with pending := pending, response := response } := by
  constructor
  · rintro ⟨hcells, h1, h2, h3, hphase, hcnt, hkey, hiv, hklen, hivlen⟩
    exact ⟨t.pending, t.response, State.ext hcells.symm h1.symm h2.symm h3.symm hphase.symm hcnt.symm hkey.symm
      hiv.symm hklen.symm hivlen.symm rfl rfl⟩
  · rintro ⟨pending, response, rfl⟩
    exact ⟨rfl, rfl, rfl, rfl, rfl, rfl, rfl, rfl, rfl, rfl⟩

theorem SameState.initClock {s t : State} (h : SameState s t) (T : Tables) :
    SameState (initClock T s) (initClock T t) := by
  obtain ⟨pending, response, rfl⟩ := sameState_iff.1 h
  exact sameState_iff.2 ⟨pending, response, rfl⟩

theorem SameState.genStep {s t : State} (h : SameState s t) : SameState (genStep s) (genStep t) := by
  obtain ⟨pending, response, rfl⟩ := sameState_iff.1 h
  exact sameState_iff.2 ⟨pending, _, rfl⟩

theorem SameState.keystreamWord_eq {s t : State} (h : SameState s t) : keystreamWord s = keystreamWord t := by
  obtain ⟨pending, response, rfl⟩ := sameState_iff.1 h
  rfl

/-- A turn that keeps the relation keeps it any number of times. -/
theorem SameState.iterate {f : State → State} (hf : ∀ {s t}, SameState s t → SameState (f s) (f t)) {s t : State}
    (h : SameState s t) (n : Nat) : SameState (f^[n] s) (f^[n] t) := by
  induction n with
  | zero => exact h
  | succ n ih =>
    rw [Function.iterate_succ_apply', Function.iterate_succ_apply']
    exact hf ih

theorem SameState.keystream_eq {s t : State} (h : SameState s t) (n : Nat) : keystream n s = keystream n t :=
  List.map_congr_left fun k _ => (h.iterate SameState.genStep k).keystreamWord_eq

/-- A load writes every item of state, from the buffers alone (R181). -/
theorem sameState_loadSession {s s' : State} (hkey : s.keyBuf = s'.keyBuf) (hiv : s.ivBuf = s'.ivBuf) :
    SameState (loadSession s) (loadSession s') :=
  ⟨congrArg₂ loadCells hkey hiv, rfl, rfl, rfl, rfl, rfl, rfl, rfl, rfl, rfl⟩

theorem sameState_finishInit_loadSession {s s' : State} (hkey : s.keyBuf = s'.keyBuf) (hiv : s.ivBuf = s'.ivBuf) :
    SameState (finishInit Config.tables (loadSession s)) (finishInit Config.tables (loadSession s')) := by
  rw [finishInit_loadSession, finishInit_loadSession]
  exact (sameState_loadSession hkey hiv).iterate (fun h => h.initClock _) 33

/-- Settles O56: LOAD makes the items of state equal, and the clocks of INIT and GEN keep them so. -/
theorem sessionDependsOnlyOnKeyAndIv : Obligations.SessionDependsOnlyOnKeyAndIv := by
  intro s s' hk hi hk' hi' hkey hiv
  have hready (s : State) : InSession (respond .ok 0 (finishInit Config.tables (loadSession s))) :=
    .inl (finishInit_loadSession_ready Config.tables s).1
  have hsame : SameState (respond .ok 0 (finishInit Config.tables (loadSession s)))
      (respond .ok 0 (finishInit Config.tables (loadSession s'))) := sameState_finishInit_loadSession hkey hiv
  refine ⟨_, _, (ExecResult.init ⟨hk, hi⟩).exec_eq, (ExecResult.init ⟨hk', hi'⟩).exec_eq, hsame, fun n => ?_⟩
  refine ⟨_, _, _, generate_eq n (hready s), ?_, hsame.iterate SameState.genStep n⟩
  rw [generate_eq n (hready s'), hsame.keystream_eq n]

end Sys2Proof.Machine
end

section
/-! The three error responses (R220 to R224) and the idle step (R235). -/

namespace Sys2Proof.Machine

/-! ### Reserved opcodes -/

/-- A row of the opcode map and a reserved opcode exclude each other (R84, R88). -/
theorem not_reservedOpcode_opcodeOf (i : Instr) : ¬ReservedOpcode (opcodeOf i) := by
  unfold ReservedOpcode
  cases i <;> (simp only [opcodeOf]; decide)

/-- The decoder rejects the reserved opcodes, and `decode_error` says that it rejects nothing else. -/
theorem decode_of_reservedOpcode {cw : CommandWord} (hres : ReservedOpcode (opcodeField cw)) :
    decode cw = .error (.reservedOpcode (opcodeField cw)) := by
  cases hd : decode cw with
  | ok i =>
    obtain ⟨hop, -⟩ := decode_ok hd
    rw [hop] at hres
    exact absurd hres (not_reservedOpcode_opcodeOf i)
  | error e =>
    obtain ⟨rfl, -⟩ := decode_error hd
    rfl

/-- Settles O7: a reserved opcode decodes to an error, whose step raises the illegal-command error. -/
theorem reservedOpcodeAnswersIllegal : Obligations.ReservedOpcodeAnswersIllegal := by
  intro s cw rest hp hrange
  have hres : ReservedOpcode (opcodeField cw) := by rwa [ReservedOpcode, opcodeField_toNat]
  rw [step_reserved hp (decode_of_reservedOpcode hres), raise_illegalCmd]
  rfl

/-! ### The other errors and the idle step -/

/-- Settles O8: the step's equation for empty ports. -/
theorem idleChangesNothing : Obligations.IdleChangesNothing := fun _ => step_idle

/-- Settles O47: the three SEQ entries of the table of phases, each with its result. -/
theorem sequenceErrorChangesNothing : Obligations.SequenceErrorChangesNothing :=
  fun _ => ⟨fun hp => ⟨(ExecResult.sequenceError (.inl ⟨.inl rfl, hp⟩)).exec_eq,
      (ExecResult.sequenceError (.inl ⟨.inr rfl, hp⟩)).exec_eq⟩,
    fun hp => (ExecResult.sequenceError (.inr ⟨rfl, hp⟩)).exec_eq⟩

/-- Settles O48: LOAD and INIT share the result of a wrong count, which clears the state. -/
theorem lengthErrorResetsTheState : Obligations.LengthErrorResetsTheState :=
  fun s hv => ⟨_, (ExecResult.lengthError (.inl rfl) hv).exec_eq, (ExecResult.lengthError (.inr rfl) hv).exec_eq,
    (sameState_clearState s).respond _ _, rfl, rfl⟩

end Sys2Proof.Machine
end

section
/-! The `rst` event (R260, R261), and the order of the pushes before a LOAD (R267). -/

namespace Sys2Proof.Machine

/-! ### `rst` -/

theorem sameState_assertRst (s : State) : SameState (assertRst s) State.reset :=
  ⟨rfl, rfl, rfl, rfl, rfl, rfl, rfl, rfl, rfl, rfl⟩

/-- `STATUS` is a function of the items of state (R31). -/
theorem SameState.status_eq {s t : State} (h : SameState s t) : s.status = t.status := by
  obtain ⟨-, -, -, -, hphase, hcnt, -, -, hklen, hivlen⟩ := h
  exact status_eq_iff.2 ⟨hphase, hcnt, hklen, hivlen⟩

theorem status_reset : State.reset.status = 0 := by decide

/-- Settles O9: the step's equation for `rst`, whose result holds the items of the reset state. -/
theorem rstRestoresResetState : Obligations.RstRestoresResetState := by
  intro s rest hp
  have hsame := sameState_assertRst { s with pending := rest }
  exact ⟨_, step_rst hp, hsame, hsame.status_eq.trans status_reset, rfl, rfl⟩

/-! ### The order of the pushes -/

/-- One push command: WRKEY of a left word, WRIV of a right one. So a list of `Word ⊕ Word` is any interleaving of its
left words, the key's, with its right words, the IV's. -/
def pushInstr : Word ⊕ Word → Instr := Sum.elim .wrkey .wriv

/-- A buffer whose length counter is `len`, after pushes of the words in order. -/
def pushWords (b : WordBuf) (len : BitVec 3) : List Word → WordBuf
  | [] => b
  | word :: words => pushWords (pushWord b len word) (pushLen len) words

/-- After any interleaving of pushes each buffer holds the words of its own kind in their order (R178, R179); of the
rest of the state only the response changes. -/
theorem execAll_map_pushInstr (ps : List (Word ⊕ Word)) (s : State) :
    ∃ response, execAll (ps.map pushInstr) s = .next { s with
      keyBuf := pushWords s.keyBuf s.klen (ps.filterMap Sum.getLeft?)
      klen := pushLen^[(ps.filterMap Sum.getLeft?).length] s.klen
      ivBuf := pushWords s.ivBuf s.ivlen (ps.filterMap Sum.getRight?)
      ivlen := pushLen^[(ps.filterMap Sum.getRight?).length] s.ivlen
      response := response } := by
  induction ps generalizing s with
  | nil => exact ⟨s.response, rfl⟩
  | cons p ps ih =>
    cases p with
    | inl word =>
      obtain ⟨response, hps⟩ := ih (respond .ok 0
        { s with keyBuf := pushWord s.keyBuf s.klen word, klen := pushLen s.klen })
      exact ⟨response, (execAll_cons (.wrkey word) _).trans hps⟩
    | inr word =>
      obtain ⟨response, hps⟩ := ih (respond .ok 0
        { s with ivBuf := pushWord s.ivBuf s.ivlen word, ivlen := pushLen s.ivlen })
      exact ⟨response, (execAll_cons (.wriv word) _).trans hps⟩

/-- From a clear counter the word pushed first becomes word 0 of the buffer, and so on (R267). -/
theorem pushWords_four (b : WordBuf) (w0 w1 w2 w3 : Word) : pushWords b 0 [w0, w1, w2, w3] = ⟨w0, w1, w2, w3⟩ := by
  simp [pushWords, pushWord_eq, pushLen_eq]

/-- LOAD after any interleaving of four pushes of each kind from clear counters: the session of those eight words. -/
theorem execAll_pushes_load {s : State} (hk : s.klen = 0) (hi : s.ivlen = 0) {ps : List (Word ⊕ Word)}
    {k0 k1 k2 k3 v0 v1 v2 v3 : Word} (hkey : ps.filterMap Sum.getLeft? = [k0, k1, k2, k3])
    (hiv : ps.filterMap Sum.getRight? = [v0, v1, v2, v3]) :
    execAll (ps.map pushInstr ++ [.load]) s =
      .next (respond .ok 0 (loadSession { s with keyBuf := ⟨k0, k1, k2, k3⟩, ivBuf := ⟨v0, v1, v2, v3⟩ })) := by
  obtain ⟨response, hps⟩ := execAll_map_pushInstr ps s
  rw [hkey, hiv, hk, hi, pushWords_four, pushWords_four] at hps
  rw [execAll_append hps, execAll_singleton (.load ⟨rfl, rfl⟩)]
  rfl

/-- The load formula (R181), with its XORs with all ones as complements. -/
theorem loadCells_eq (k0 k1 k2 k3 v0 v1 v2 v3 : Word) : loadCells ⟨k0, k1, k2, k3⟩ ⟨v0, v1, v2, v3⟩ =
    ⟨~~~k0, ~~~k1, ~~~k2, ~~~k3, k0, k1, k2, k3, ~~~k0, ~~~k1 ^^^ v3, ~~~k2 ^^^ v2, ~~~k3, k0 ^^^ v1, k1, k2,
      k3 ^^^ v0⟩ := by
  have hnot (w : Word) : w ^^^ allOnes = ~~~w := BitVec.xor_allOnes
  simp only [loadCells, hnot]

/-- Settles O53: both orders are interleavings of the same two sequences of four words. -/
theorem pushOrderIsKeyAndIvOrder : Obligations.PushOrderIsKeyAndIvOrder := by
  intro s k0 k1 k2 k3 v0 v1 v2 v3 hk hi
  have hordered := execAll_pushes_load hk hi
    (ps := [.inl k0, .inl k1, .inl k2, .inl k3, .inr v0, .inr v1, .inr v2, .inr v3]) rfl rfl
  have halternating := execAll_pushes_load hk hi
    (ps := [.inr v0, .inl k0, .inr v1, .inl k1, .inr v2, .inl k2, .inr v3, .inl k3]) rfl rfl
  exact ⟨_, hordered, halternating, rfl, loadCells_eq k0 k1 k2 k3 v0 v1 v2 v3⟩

end Sys2Proof.Machine
end
